-- ==== Sys2Proof/Word.lean ====
section
/-! DEFINITION. The words of ADPT: the widths of ports, fields and stored records (spec/00_scope.md R2, R3;
spec/10_state.md R8 to R10; spec/20_memory.md R19). Every value is unsigned; bit 0 is the least significant. -/

namespace Sys2Proof

/-- One byte of a host's byte-wide channel (R22); ADPT itself has no bytes. -/
abbrev Byte := BitVec 8

/-- The request word `W[37:0] = op[1:0], va[35:0]` (R30). -/
abbrev RequestWord := BitVec 38

/-- The input port `op[1:0]` (R8). -/
abbrev OpCode := BitVec 2

/-- The input port `va[35:0]` (R9). -/
abbrev VirtualAddress := BitVec 36

/-- The output port `off[11:0]` (R10). -/
abbrev PageOffset := BitVec 12

/-- The output ports `l3[7:0]` and `l2[7:0]` (R10). -/
abbrev LevelIndex := BitVec 8

/-- The output port `l1[3:0]` (R10). -/
abbrev Level1Index := BitVec 4

/-- The output port `pn[7:0]` (R10). -/
abbrev PageNumber := BitVec 8

/-- A frame number, `FRAME_W` bits (R2). -/
abbrev FrameNumber := BitVec 20

/-- The output port `pa[31:0]`, `PA_W` bits (R10). -/
abbrev PhysicalAddress := BitVec 32

/-- A page-table entry as a stored word `E[21:0]` (R19). -/
abbrev RomWord := BitVec 22

/-- The code on the output port `status[1:0]` (R10, R49). -/
abbrev StatusCode := BitVec 2

end Sys2Proof
end

