-- ==== Sys2Proof/Config.lean ====
section
/-! DEFINITION. The implementation parameters of spec/00_scope.md R2: the fixed ones as numbers, the OPEN ones as
constants without a body, and the page-table ROM they fill (spec/10_state.md R12 to R15). -/

namespace Sys2Proof

/-- One page-table entry (R12): presence bit, modified bit, frame number. -/
structure PageTableEntry where
  /-- 1 = resident, 0 = in swap. -/
  P : Bool
  /-- Modified; read by no operation (R16). -/
  M : Bool
  frame : FrameNumber
  deriving DecidableEq, Repr, Inhabited

/-- What a builder may choose of the ROM (R13 to R15): the modified bits of entries 0 and 1, and entries 2 to 7 whole.
The P bits and frames of entries 0 and 1 are fixed by R13 and R14, so they are no field: `Machine.romRead` supplies
them, and a table that breaks R13 or R14 cannot be written down. -/
structure Rom where
  m0 : Bool
  m1 : Bool
  e2 : PageTableEntry
  e3 : PageTableEntry
  e4 : PageTableEntry
  e5 : PageTableEntry
  e6 : PageTableEntry
  e7 : PageTableEntry
  deriving DecidableEq, Repr

end Sys2Proof

namespace Sys2Proof.Config

/-- `VA36_W`: width of the `va` port. -/
@[simp] abbrev va36W : Nat := 36
/-- `DEC36_USED_W`: number of low `va` bits DEC36 examines. -/
@[simp] abbrev dec36UsedW : Nat := 32
/-- `VA32_W`: width of the source's DEC32 and XLATE input. -/
@[simp] abbrev va32W : Nat := 32
/-- `OFF_W`. -/
@[simp] abbrev offW : Nat := 12
/-- `L3_W`. -/
@[simp] abbrev l3W : Nat := 8
/-- `L2_W`. -/
@[simp] abbrev l2W : Nat := 8
/-- `L1_W`. -/
@[simp] abbrev l1W : Nat := 4
/-- `PN_W`. -/
@[simp] abbrev pnW : Nat := 8
/-- `PAGE_SIZE`: bytes per page and frame. -/
@[simp] abbrev pageSize : Nat := 4096
/-- `PT_ENTRIES`: entries of the ROM. -/
@[simp] abbrev ptEntries : Nat := 8
/-- `FRAME_W`. -/
@[simp] abbrev frameW : Nat := 20
/-- `PA_W = FRAME_W + OFF_W`. -/
@[simp] abbrev paW : Nat := frameW + offW

/-- `PT_M0` (OPEN): modified bit of ROM entry 0. Log entry 2. -/
opaque ptM0 : Bool
/-- `PT_M1` (OPEN): modified bit of ROM entry 1. Log entry 2. -/
opaque ptM1 : Bool
/-- `PT_ROM_INIT[2..7]` (OPEN): ROM entries 2 to 7, by index; read at 2 to 7 only. Log entry 2. -/
opaque ptRomInit : Nat → PageTableEntry
/-- `T_SETTLE` (OPEN): the least time the host holds its inputs stable before it samples (R61), in a unit the spec
does not name. Log entry 3. -/
opaque tSettle : Nat

/-- The ROM this block was built with (R17). -/
def rom : Rom where
  m0 := ptM0
  m1 := ptM1
  e2 := ptRomInit 2
  e3 := ptRomInit 3
  e4 := ptRomInit 4
  e5 := ptRomInit 5
  e6 := ptRomInit 6
  e7 := ptRomInit 7

end Sys2Proof.Config
end

