-- ==== Sys2Proof/Syntax.lean ====
section
/-! DEFINITION. The requests of ADPT, one constructor per row of spec/opcode_table.json (spec/30_encoding.md R31), and
above them the lines of the spec's assembler (R36, R37) and the raw table a builder supplies (spec/00_scope.md R2). -/

namespace Sys2Proof

/-- One request. Each carries the whole 36-bit operand, its ignored bits too (R32, R35), so that a request and its word
determine each other. -/
inductive Instr where
  /-- op 0 (R40). -/
  | dec36 (va : VirtualAddress)
  /-- op 1 (R42). -/
  | dec32 (va : VirtualAddress)
  /-- op 2 (R47). -/
  | xlate (va : VirtualAddress)
  /-- op 3, reserved (R52). -/
  | reservedOp3 (va : VirtualAddress)
  deriving DecidableEq, Repr

/-- The operand of a request. -/
def Instr.va (i : Instr) : VirtualAddress :=
  match i with
  | .dec36 va => va
  | .dec32 va => va
  | .xlate va => va
  | .reservedOp3 va => va

/-- The row of spec/opcode_table.json a request belongs to. -/
def Instr.mnemonic (i : Instr) : String :=
  match i with
  | .dec36 _ => "DEC36"
  | .dec32 _ => "DEC32"
  | .xlate _ => "XLATE"
  | .reservedOp3 _ => "RESERVED_OP3"

/-- One row of spec/opcode_table.json: a word belongs to it when the bits under `mask` are `pattern`. -/
structure OpcodeRow where
  mnemonic : String
  mask : RequestWord
  pattern : RequestWord
  deriving DecidableEq, Repr

/-- One line of the spec's assembler (R36, R37). Operands are the numbers as written, before any width check. -/
inductive AsmLine where
  | dec36 (n : Nat)
  | dec32 (n : Nat)
  | xlate (n : Nat)
  /-- The pseudo-instruction `LOOKUP pn, off` (R37). -/
  | lookup (pn off : Nat)
  /-- `.word`, the only spelling of the reserved encoding (R36). -/
  | word (w : Nat)
  deriving DecidableEq, Repr

/-- A page-table entry as the source's data model has it (R12): the frame an unsigned integer of no stated width. -/
structure RawEntry where
  presence : Bool
  modified : Bool
  frame : Nat
  deriving DecidableEq, Repr

end Sys2Proof
end

