-- ==== Sys2Proof/WellFormed.lean ====
section
/-! DEFINITION. What each kind of syntax must satisfy: a request (spec/30_encoding.md R30, R35), an assembler line
(R36, R37) and a ROM table (spec/00_scope.md R2, spec/10_state.md R12 to R14). -/

namespace Sys2Proof

/-- A request's operand fits the `va` port. The type already says so: no value of `va` makes a request ill-formed
(R35), which `Laws.instr_wellFormed` records. -/
abbrev Instr.WellFormed (i : Instr) : Prop := i.va.toNat < 2 ^ Config.va36W

/-- The operand of a `MNEMONIC operand` line is below `2^36` (R36). -/
def operandOk (n : Nat) : Bool := decide (n < 2 ^ Config.va36W)

/-- The page number of a LOOKUP is below 256 (R37). -/
def lookupPageOk (pn : Nat) : Bool := decide (pn < 2 ^ Config.pnW)

/-- The offset of a LOOKUP is below 4096 (R37). -/
def lookupOffsetOk (off : Nat) : Bool := decide (off < 2 ^ Config.offW)

/-- A `.word` line spells a word of the reserved operation, `0x3` and nine more hexadecimal digits (R36). -/
def reservedWordOk (w : Nat) : Bool := decide (3 * 2 ^ Config.va36W ≤ w ∧ w < 4 * 2 ^ Config.va36W)

/-- The lines the assembler accepts (R36, R37). -/
def AsmLine.wf (l : AsmLine) : Bool :=
  match l with
  | .dec36 n => operandOk n
  | .dec32 n => operandOk n
  | .xlate n => operandOk n
  | .lookup pn off => lookupPageOk pn && lookupOffsetOk off
  | .word w => reservedWordOk w

/-- A frame number fits `FRAME_W` bits (R2). -/
def RawEntry.frameOk (e : RawEntry) : Bool := decide (e.frame < 2 ^ Config.frameW)

/-- R13: entry 0 is present and its frame is 0. -/
def RawEntry.isRom0 (e : RawEntry) : Bool := e.presence && decide (e.frame = 0)

/-- R14: entry 1 is not present and its frame is 8. -/
def RawEntry.isRom1 (e : RawEntry) : Bool := !e.presence && decide (e.frame = 8)

/-- The tables a block may be built with: 8 entries (R12), the first two as R13 and R14 say, every frame in range
(R2). -/
def rawTableWf (t : List RawEntry) : Bool :=
  decide (t.length = Config.ptEntries) && t.all RawEntry.frameOk &&
    (t[0]?.any RawEntry.isRom0) && (t[1]?.any RawEntry.isRom1)

end Sys2Proof
end

