-- ==== Sys2Proof/Decode.lean ====
section
/-! DEFINITION. The field-extraction primitive (spec/40_address_decomposer.md R39); the decoder of request words, total
and one row for each word (spec/30_encoding.md R30 to R35); the encoder, written from the same tables; and the framings
through which a number or a byte-wide channel reaches the 38-bit port, which reject by name. -/

namespace Sys2Proof

/-- `Field(v, start, width) = v[start+width-1 : start]` (R39). Bits past the width of `v` read 0. -/
def field {n : Nat} (v : BitVec n) (start width : Nat) : BitVec width := v.extractLsb' start width

/-- `W[37:36]` (R30). -/
def opField (w : RequestWord) : OpCode := field w 36 2

/-- `W[35:0]` (R30). -/
def vaField (w : RequestWord) : VirtualAddress := field w 0 36

/-- The request word on the two input ports, `op` in the high bits (R30). -/
def requestWord (op : OpCode) (va : VirtualAddress) : RequestWord := op ++ va

/-- The operation map (R31). Every 38-bit word decodes to exactly one of the four rows. -/
def decode (w : RequestWord) : Instr :=
  let va := vaField w
  if opField w = 0#2 then .dec36 va
  else if opField w = 1#2 then .dec32 va
  else if opField w = 2#2 then .xlate va
  else .reservedOp3 va

/-- The rows of spec/opcode_table.json, `match` and `mask` as the table gives them. -/
def opcodeRows : List OpcodeRow :=
  [ ⟨"DEC36", 0x3000000000#38, 0x0000000000#38⟩,
    ⟨"DEC32", 0x3000000000#38, 0x1000000000#38⟩,
    ⟨"XLATE", 0x3000000000#38, 0x2000000000#38⟩,
    ⟨"RESERVED_OP3", 0x3000000000#38, 0x3000000000#38⟩ ]

/-- A word belongs to a row. -/
def OpcodeRow.covers (r : OpcodeRow) (w : RequestWord) : Bool := decide (w &&& r.mask = r.pattern)

/-- Why a number or a byte sequence is no request: the port cannot carry it. ADPT itself rejects nothing (R31). -/
inductive DecodeError where
  /-- A number of more than 38 bits (spec/93_implementation_defined.md I12). -/
  | wordTooWide
  /-- A byte sequence that is not five bytes long (log entry 8). -/
  | wrongLength
  deriving DecidableEq, Repr

/-- The request whose word is the number `w`, `W = op × 2^36 + va` (R30). -/
def decodeNat (w : Nat) : Except DecodeError Instr :=
  if w < 2 ^ 38 then .ok (decode (BitVec.ofNat 38 w)) else .error .wordTooWide

/-- The byte order a host chose for its channel (R22); ADPT has none. -/
inductive ByteOrder where
  | lsbFirst
  | msbFirst
  deriving DecidableEq, Repr

/-- The number of a byte sequence, least significant byte first. -/
def bytesToNat (bs : List Byte) : Nat :=
  match bs with
  | [] => 0
  | b :: rest => b.toNat + 256 * bytesToNat rest

/-- The least significant `count` bytes of a number, least significant first. -/
def natToBytes (count n : Nat) : List Byte :=
  match count with
  | 0 => []
  | k + 1 => BitVec.ofNat 8 n :: natToBytes k (n / 256)

/-- The bytes in the channel's order, or back. -/
def ByteOrder.arrange (o : ByteOrder) (bs : List Byte) : List Byte :=
  match o with
  | .lsbFirst => bs
  | .msbFirst => bs.reverse

/-- A request from a host's byte-wide channel: five bytes in the order the host chose, the two bits above the word
zero. DESIGN CHOICE (log entry 8): the spec leaves the channel to the host. -/
def decodeBytes (o : ByteOrder) (bs : List Byte) : Except DecodeError Instr :=
  if bs.length = 5 then decodeNat (bytesToNat (o.arrange bs)) else .error .wrongLength

/-- The instruction of a table word: `w` cut to `nbits` bits, every bit above them 0. -/
def decodeTableWord (nbits w : Nat) : Option Instr :=
  match decodeNat (w % 2 ^ nbits) with
  | .ok i => some i
  | .error _ => none

/-- The `op` code of a request (R31). -/
def Instr.opCode (i : Instr) : OpCode :=
  match i with
  | .dec36 _ => 0#2
  | .dec32 _ => 1#2
  | .xlate _ => 2#2
  | .reservedOp3 _ => 3#2

/-- The word of a request (R30). -/
def encode (i : Instr) : RequestWord := requestWord i.opCode i.va

/-- A request as five bytes on a host's channel, the inverse of `decodeBytes` (log entry 8). -/
def encodeBytes (o : ByteOrder) (i : Instr) : List Byte := o.arrange (natToBytes 5 (encode i).toNat)

end Sys2Proof
end

