-- ==== Sys2Proof/Machine/State.lean ====
section
/-! DEFINITION. What ADPT holds (spec/10_state.md): its two input ports, its ROM, its output ports; the reasons a step
could stop; the state after power-up. All of it plain data. -/

namespace Sys2Proof.Machine

/-- The outcome a response reports on `status[1:0]` (R49). `Status.code` gives the port's two bits. -/
inductive Status where
  | ok
  | outOfRange
  | pageNotResident
  | illegalOp
  deriving DecidableEq, Repr

/-- The output ports (R10). -/
structure Response where
  status : Status
  off : PageOffset
  l3 : LevelIndex
  l2 : LevelIndex
  l1 : Level1Index
  pn : PageNumber
  pa : PhysicalAddress
  deriving DecidableEq, Repr

/-- ADPT between two requests. `op` and `va` are what the host drives (R8, R9). `rom` is the block's configuration
(R6, R12), carried here because `step` has no other argument; no step writes it (log entry 1). `out` is what the output
ports showed when the last step ended (R10, R61; log entry 5). -/
structure State where
  op : OpCode
  va : VirtualAddress
  rom : Rom
  out : Response
  deriving DecidableEq, Repr

/-- Reasons the machine would stop with a fault. The spec names none ("Nothing in ADPT is `fault` or `stuck`",
spec/93_implementation_defined.md), so nobody can raise one: there is no constructor. Safe. -/
inductive Fault where
  deriving DecidableEq, Repr

/-- Reasons a request has no meaning. -/
inductive Refusal where
  /-- Raised by a refused arm of `exec`, for a request without a meaning. No arm is refused, so no step raises it.
  Safe: it could only make a claim unprovable. -/
  | notModelled (mnemonic : String)
  deriving DecidableEq, Repr

/-- The state at power-up (R17, R59): the ROM as built; the input ports at 0, a DESIGN CHOICE, since the host drives
them and the spec gives no value (log entry 4); the outputs at what those inputs give (log entry 5). -/
def State.reset : State where
  op := 0
  va := 0
  rom := Config.rom
  out := { status := .ok, off := 0, l3 := 0, l2 := 0, l1 := 0, pn := 0, pa := 0 }

end Sys2Proof.Machine
end

