-- ==== Sys2Proof/Machine/Ops.lean ====
section
/-! DEFINITION. The primitives of the spec's pseudocode (spec/00_scope.md R4, R5): reading the ROM, driving an output,
`raise`; how a meaning answers with its response; and the ports as the host drives them and the block reads them. -/

namespace Sys2Proof.Machine

/-- `RomRead(i)` (R20): the whole record of entry `i`, without side effect. `Fin 8` is R20's `i < 8`. Entries 0 and 1
are R13 and R14, the others the builder's (R15). -/
def romRead (r : Rom) (i : Fin 8) : PageTableEntry :=
  match i with
  | 0 => { P := true, M := r.m0, frame := 0 }
  | 1 => { P := false, M := r.m1, frame := 8 }
  | 2 => r.e2
  | 3 => r.e3
  | 4 => r.e4
  | 5 => r.e5
  | 6 => r.e6
  | 7 => r.e7

/-- The outputs before an operation drives any: status OK (R5), every data output 0 (R11). -/
def undriven : Response :=
  { status := .ok, off := 0, l3 := 0, l2 := 0, l1 := 0, pn := 0, pa := 0 }

/-- `out.off <- v` (R4). -/
def driveOff (r : Response) (v : PageOffset) : Response := { r with off := v }
/-- `out.l3 <- v` (R4). -/
def driveL3 (r : Response) (v : LevelIndex) : Response := { r with l3 := v }
/-- `out.l2 <- v` (R4). -/
def driveL2 (r : Response) (v : LevelIndex) : Response := { r with l2 := v }
/-- `out.l1 <- v` (R4). -/
def driveL1 (r : Response) (v : Level1Index) : Response := { r with l1 := v }
/-- `out.pn <- v` (R4). -/
def drivePn (r : Response) (v : PageNumber) : Response := { r with pn := v }
/-- `out.pa <- v` (R4). -/
def drivePa (r : Response) (v : PhysicalAddress) : Response := { r with pa := v }

/-- `raise S` (R5, R54): ADPT's whole exception entry. The status becomes that of `S`, outputs already driven keep their
values, and the operation ends; nothing is saved and control goes nowhere, so there is no return either (R55). -/
def raise (r : Response) (st : Status) : Response := { r with status := st }

/-- The end of every operation: the whole response appears on the outputs, and nothing else changes (R6, R12, R61). -/
def answer (s : State) (r : Response) : Host.Outcome State Fault Refusal := .next { s with out := r }

/-- The request on the input ports, as one word (R30). -/
def State.portWord (s : State) : RequestWord := requestWord s.op s.va

/-- The host drives a request on the input ports (R8, R9, R60). The outputs show the answer after the next step. -/
def State.drive (s : State) (w : RequestWord) : State := { s with op := opField w, va := vaField w }

end Sys2Proof.Machine
end

