-- ==== Sys2Proof/Machine/Operands.lean ====
section
/-! DEFINITION. The operand forms (spec/30_encoding.md R32, R33): the fields each layout takes from `va`, as named start
and width constants with one extraction helper (spec/40_address_decomposer.md R38, R39). -/

namespace Sys2Proof.Machine

/-- Where a field of `va` lies. -/
structure FieldSpec where
  start : Nat
  width : Nat
  deriving DecidableEq, Repr

/-- `off`, bits 0 to 11, in both layouts. -/
def offSpec : FieldSpec := ⟨0, Config.offW⟩
/-- `l3`, bits 12 to 19. -/
def l3Spec : FieldSpec := ⟨12, Config.l3W⟩
/-- `l2`, bits 20 to 27. -/
def l2Spec : FieldSpec := ⟨20, Config.l2W⟩
/-- `l1`, bits 28 to 31. -/
def l1Spec : FieldSpec := ⟨28, Config.l1W⟩
/-- `pn`, bits 12 to 19. -/
def pnSpec : FieldSpec := ⟨12, Config.pnW⟩

/-- The 36-bit layout (R38, R40). -/
def layout36 : List FieldSpec := [offSpec, l3Spec, l2Spec, l1Spec]
/-- The 32-bit layout (R38, R42). -/
def layout32 : List FieldSpec := [offSpec, pnSpec]

/-- The field holds bit `b` of `va`. -/
def FieldSpec.holds (f : FieldSpec) (b : Nat) : Bool := decide (f.start ≤ b ∧ b < f.start + f.width)

/-- The field of `va` (R39). -/
def FieldSpec.get (f : FieldSpec) (va : VirtualAddress) : BitVec f.width := field va f.start f.width

/-- `va[11:0]`. -/
def offOf (va : VirtualAddress) : PageOffset := offSpec.get va
/-- `va[19:12]` of the 36-bit layout. -/
def l3Of (va : VirtualAddress) : LevelIndex := l3Spec.get va
/-- `va[27:20]`. -/
def l2Of (va : VirtualAddress) : LevelIndex := l2Spec.get va
/-- `va[31:28]`. -/
def l1Of (va : VirtualAddress) : Level1Index := l1Spec.get va
/-- `va[19:12]` of the 32-bit layout. -/
def pnOf (va : VirtualAddress) : PageNumber := pnSpec.get va

end Sys2Proof.Machine
end

