-- ==== Sys2Proof/Machine/Flags.lean ====
section
/-! DEFINITION. ADPT's status-like bits (spec/10_state.md R16): the codes of the `status` output
(spec/60_exceptions.md R49), the two checks that decide it (spec/41_page_table_lookup.md R44, R45), and a ROM entry as a
stored word (spec/20_memory.md R19). There are no condition codes. -/

namespace Sys2Proof.Machine

/-- The code on `status[1:0]` (R49). -/
def Status.code (st : Status) : StatusCode :=
  match st with
  | .ok => 0#2
  | .outOfRange => 1#2
  | .pageNotResident => 2#2
  | .illegalOp => 3#2

/-- The output port `status[1:0]`. -/
def Response.statusPort (r : Response) : StatusCode := r.status.code

/-- `InRange(pn)` (R44). -/
abbrev InRange (pn : PageNumber) : Prop := pn.toNat < Config.ptEntries

/-- The presence check (R45). M takes no part (R16). -/
def present (e : PageTableEntry) : Bool := e.P

/-- `E[21:0]`: `E[0] = P`, `E[1] = M`, `E[21:2] = frame` (R19). -/
def romWord (e : PageTableEntry) : RomWord := e.frame ++ BitVec.ofBool e.M ++ BitVec.ofBool e.P

/-- The record of a stored word (R19). -/
def romEntryOfWord (w : RomWord) : PageTableEntry :=
  { P := w.getLsbD 0, M := w.getLsbD 1, frame := field w 2 Config.frameW }

end Sys2Proof.Machine
end

