-- ==== Sys2Proof/Machine/Decomposer.lean ====
section
/-! DEFINITION. The address decomposer (spec/40_address_decomposer.md): DEC36 and DEC32. Neither reads the ROM. -/

namespace Sys2Proof.Machine

/-- The response of DEC36 (R40). -/
def dec36Response (va : VirtualAddress) : Response :=
  driveL1 (driveL2 (driveL3 (driveOff undriven (offOf va)) (l3Of va)) (l2Of va)) (l1Of va)

/-- DEC36 (R40). -/
def execDec36 (va : VirtualAddress) (s : State) : Host.Outcome State Fault Refusal := answer s (dec36Response va)

/-- The response of DEC32 (R42): no range check. -/
def dec32Response (va : VirtualAddress) : Response := driveOff (drivePn undriven (pnOf va)) (offOf va)

/-- DEC32 (R42). -/
def execDec32 (va : VirtualAddress) (s : State) : Host.Outcome State Fault Refusal := answer s (dec32Response va)

end Sys2Proof.Machine
end

