-- ==== Sys2Proof/Machine/Lookup.lean ====
section
/-! DEFINITION. The page-table-lookup-mux (spec/41_page_table_lookup.md): XLATE. -/

namespace Sys2Proof.Machine

/-- `pa = frame × PAGE_SIZE + off` (R46). -/
def physicalAddress (frame : FrameNumber) (off : PageOffset) : PhysicalAddress :=
  BitVec.ofNat 32 (frame.toNat * Config.pageSize + off.toNat)

/-- The response of XLATE (R47): `pn` and `off` in every outcome; then the range check, which comes before any read
(R44, R53), the presence check (R45) and the physical address (R46). -/
def xlateResponse (rom : Rom) (va : VirtualAddress) : Response :=
  let out := driveOff (drivePn undriven (pnOf va)) (offOf va)
  if h : InRange (pnOf va) then
    let e := romRead rom ⟨(pnOf va).toNat, h⟩
    if present e then drivePa out (physicalAddress e.frame (offOf va)) else raise out .pageNotResident
  else raise out .outOfRange

/-- XLATE (R47). -/
def execXlate (va : VirtualAddress) (s : State) : Host.Outcome State Fault Refusal := answer s (xlateResponse s.rom va)

end Sys2Proof.Machine
end

