-- ==== Sys2Proof/Machine/Reserved.lean ====
section
/-! DEFINITION. The reserved operation, op 3 (spec/60_exceptions.md R52). -/

namespace Sys2Proof.Machine

/-- The response of the reserved operation (R52): `raise ILLEGAL_OP` before any output is driven. -/
def reservedOp3Response : Response := raise undriven .illegalOp

/-- The reserved operation (R52). `va` is ignored. -/
def execReservedOp3 (_va : VirtualAddress) (s : State) : Host.Outcome State Fault Refusal := answer s reservedOp3Response

end Sys2Proof.Machine
end

