-- ==== Sys2Proof/Machine/Dispatch.lean ====
section
/-! DEFINITION. One arm per request (spec/30_encoding.md R31). -/

namespace Sys2Proof.Machine

def exec (i : Instr) (s : State) : Host.Outcome State Fault Refusal :=
  match i with
  | .dec36 va => Sys2Proof.Machine.execDec36 va s
  | .dec32 va => Sys2Proof.Machine.execDec32 va s
  | .xlate va => Sys2Proof.Machine.execXlate va s
  | .reservedOp3 va => Sys2Proof.Machine.execReservedOp3 va s

end Sys2Proof.Machine
end

