-- ==== Sys2Proof/Machine/Step.lean ====
section
/-! DEFINITION. One step: one request, from the input ports to the whole response (spec/70_reset_and_hazards.md R61). -/

namespace Sys2Proof.Machine

/-- The request on the input ports is decoded and answered. -/
def step (s : State) : Host.Outcome State Fault Refusal := exec (decode s.portWord) s

/-- The host drives the table word `w` (cut to `nbits` bits) on the input ports, so that the next step answers it. The
ports carry 38 bits; bits above them do not reach the block (log entry 6). -/
def State.withFetchWord (s : State) (nbits w : Nat) : State := s.drive (BitVec.ofNat 38 (w % 2 ^ nbits))

end Sys2Proof.Machine
end

