-- ==== Sys2Proof/Machine/Assembler.lean ====
section
/-! DEFINITION. The spec's assembler (spec/30_encoding.md R36, R37): lines of text to requests, refusing by name. How
text is split into tokens is log entry 9. -/

namespace Sys2Proof.Machine

/-- Why the assembler refuses a line. -/
inductive AsmError where
  /-- The first token is no mnemonic of R36 or R37. -/
  | unknownMnemonic
  /-- The tokens after the mnemonic do not have its form. -/
  | operandForm
  /-- An operand is neither a `0x` hexadecimal nor a decimal literal. -/
  | literal
  /-- An operand of `2^36` or more (R36). -/
  | operandTooWide
  /-- A LOOKUP page number of 256 or more (R37). -/
  | pageNumberTooWide
  /-- A LOOKUP offset of 4096 or more (R37). -/
  | offsetTooWide
  /-- A `.word` that is not `0x3` and nine hexadecimal digits (R36). -/
  | notReservedWord
  deriving DecidableEq, Repr

/-- The operand of a `MNEMONIC operand` line. -/
def assembleOperand (n : Nat) : Except AsmError VirtualAddress :=
  if operandOk n then .ok (BitVec.ofNat Config.va36W n) else .error .operandTooWide

/-- `LOOKUP pn, off` expands to `XLATE ((pn << 12) | off)` (R37). -/
def lookupOperand (pn off : Nat) : Nat := (pn <<< 12) ||| off

/-- The request of a line (R36, R37). -/
def assemble (l : AsmLine) : Except AsmError Instr :=
  match l with
  | .dec36 n => (assembleOperand n).map Instr.dec36
  | .dec32 n => (assembleOperand n).map Instr.dec32
  | .xlate n => (assembleOperand n).map Instr.xlate
  | .lookup pn off =>
    if !lookupPageOk pn then .error .pageNumberTooWide
    else if !lookupOffsetOk off then .error .offsetTooWide
    else (assembleOperand (lookupOperand pn off)).map Instr.xlate
  | .word w => if reservedWordOk w then .ok (decode (BitVec.ofNat 38 w)) else .error .notReservedWord

/-- The value of a hexadecimal digit. -/
def hexDigit (c : Char) : Option Nat :=
  let k := c.toNat
  if 48 ≤ k ∧ k ≤ 57 then some (k - 48)
  else if 97 ≤ k ∧ k ≤ 102 then some (k - 87)
  else if 65 ≤ k ∧ k ≤ 70 then some (k - 55)
  else none

/-- The value of a decimal digit. -/
def decDigit (c : Char) : Option Nat :=
  let k := c.toNat
  if 48 ≤ k ∧ k ≤ 57 then some (k - 48) else none

/-- Positional notation, most significant digit first (spec/20_memory.md R22), read onto `acc`. -/
def digitsFrom (base : Nat) (digit : Char → Option Nat) (acc : Nat) (cs : List Char) : Option Nat :=
  match cs with
  | [] => some acc
  | c :: rest =>
    match digit c with
    | some d => digitsFrom base digit (acc * base + d) rest
    | none => none

/-- A literal: `0x` and hexadecimal digits, or decimal digits (R36); at least one digit. -/
def literal (cs : List Char) : Option Nat :=
  match cs with
  | '0' :: 'x' :: d :: rest => digitsFrom 16 hexDigit 0 (d :: rest)
  | d :: rest => digitsFrom 10 decDigit 0 (d :: rest)
  | [] => none

/-- The literal of a `.word` line: `0x3` and exactly nine more hexadecimal digits (R36). -/
def wordLiteral (cs : List Char) : Option Nat :=
  match cs with
  | '0' :: 'x' :: '3' :: rest => if rest.length = 9 then digitsFrom 16 hexDigit 3 rest else none
  | _ => none

/-- The line without its comment: `;` starts one (R36). -/
def stripComment (cs : List Char) : List Char := cs.takeWhile (fun c => c ≠ ';')

/-- The token read so far, put before the later ones unless it is empty. -/
def flushToken (cur : List Char) (later : List (List Char)) : List (List Char) :=
  if cur.isEmpty then later else cur :: later

/-- Tokens: runs of characters between spaces and tabs; a comma is a token of its own. -/
def tokens (cur : List Char) (cs : List Char) : List (List Char) :=
  match cs with
  | [] => flushToken cur []
  | c :: rest =>
    if c = ' ' ∨ c = '\t' then flushToken cur (tokens [] rest)
    else if c = ',' then flushToken cur ([','] :: tokens [] rest)
    else tokens (cur ++ [c]) rest

/-- The line of a mnemonic with one operand. -/
def oneOperand (mk : Nat → AsmLine) (args : List (List Char)) : Except AsmError (Option AsmLine) :=
  match args with
  | [a] =>
    match literal a with
    | some n => .ok (some (mk n))
    | none => .error .literal
  | _ => .error .operandForm

/-- The line of `LOOKUP pn, off`. -/
def lookupOperands (args : List (List Char)) : Except AsmError (Option AsmLine) :=
  match args with
  | [a, [','], b] =>
    match literal a, literal b with
    | some pn, some off => .ok (some (.lookup pn off))
    | _, _ => .error .literal
  | _ => .error .operandForm

/-- The line of `.word`. -/
def wordOperand (args : List (List Char)) : Except AsmError (Option AsmLine) :=
  match args with
  | [a] =>
    match wordLiteral a with
    | some w => .ok (some (.word w))
    | none => .error .notReservedWord
  | _ => .error .operandForm

/-- One line of text (R36, R37); nothing for a line that is empty or only a comment. -/
def parseLine (cs : List Char) : Except AsmError (Option AsmLine) :=
  match tokens [] (stripComment cs) with
  | [] => .ok none
  | m :: args =>
    if m = "DEC36".toList then oneOperand .dec36 args
    else if m = "DEC32".toList then oneOperand .dec32 args
    else if m = "XLATE".toList then oneOperand .xlate args
    else if m = "LOOKUP".toList then lookupOperands args
    else if m = ".word".toList then wordOperand args
    else .error .unknownMnemonic

/-- A line of text to its request (R36, R37). -/
def assembleText (line : String) : Except AsmError (Option Instr) :=
  match parseLine line.toList with
  | .ok (some l) => (assemble l).map some
  | .ok none => .ok none
  | .error e => .error e

end Sys2Proof.Machine
end

