-- ==== Sys2Proof/Machine/Build.lean ====
section
/-! DEFINITION. Building the block (spec/70_reset_and_hazards.md R60, spec/20_memory.md R29): a table of the source's
raw records becomes a ROM, or is refused by name (spec/92_eei_decisions.md D11, spec/93_implementation_defined.md I6). -/

namespace Sys2Proof.Machine

/-- Why a table is refused. -/
inductive BuildError where
  /-- Not 8 entries (R12). -/
  | wrongLength
  /-- A frame of `2^FRAME_W` or more (R2). -/
  | frameTooWide
  /-- Entry 0 is not present with frame 0 (R13). -/
  | entry0
  /-- Entry 1 is not absent with frame 8 (R14). -/
  | entry1
  deriving DecidableEq, Repr

/-- A raw record as an entry of the ROM; exact when the frame is in range. -/
def entryOfRaw (e : RawEntry) : PageTableEntry :=
  { P := e.presence, M := e.modified, frame := BitVec.ofNat Config.frameW e.frame }

/-- The ROM of a table (R12 to R15). -/
def buildRom (t : List RawEntry) : Except BuildError Rom :=
  match t with
  | [r0, r1, r2, r3, r4, r5, r6, r7] =>
    if !t.all RawEntry.frameOk then .error .frameTooWide
    else if !r0.isRom0 then .error .entry0
    else if !r1.isRom1 then .error .entry1
    else .ok { m0 := r0.modified, m1 := r1.modified, e2 := entryOfRaw r2, e3 := entryOfRaw r3, e4 := entryOfRaw r4,
               e5 := entryOfRaw r5, e6 := entryOfRaw r6, e7 := entryOfRaw r7 }
  | _ => .error .wrongLength

/-- Power-up of a block built with this ROM (R17, R59): `State.reset` but for the configuration. -/
def powerUp (r : Rom) : State := { State.reset with rom := r }

end Sys2Proof.Machine
end

