-- ==== Sys2Proof/Machine/Respond.lean ====
section
/-! DEFINITION. ADPT as the function it is: the outputs as a function of the ROM and the request alone
(spec/20_memory.md R27, spec/70_reset_and_hazards.md R59). The meanings drive exactly this; claims cite it. -/

namespace Sys2Proof.Machine

/-- The response to a request. -/
def respond (rom : Rom) (i : Instr) : Response :=
  match i with
  | .dec36 va => dec36Response va
  | .dec32 va => dec32Response va
  | .xlate va => xlateResponse rom va
  | .reservedOp3 _ => reservedOp3Response

end Sys2Proof.Machine
end

