-- ==== Sys2Proof/Machine/Session.lean ====
section
/-! DEFINITION. The host's side (spec/70_reset_and_hazards.md R60, R61; spec/92_eei_decisions.md D21): issuing a
sequence of requests and reading each whole response, and sampling the outputs of held inputs. -/

namespace Sys2Proof.Machine

/-- The host issues the requests in order, each driven on the ports and answered by one step, and reads every response.
The answer is the list of responses and the state at the end; nothing if a step stopped (none does). -/
def serve (ws : List RequestWord) (s : State) : Option (List Response × State) :=
  match ws with
  | [] => some ([], s)
  | w :: rest =>
    match step (s.drive w) with
    | .next s' => (serve rest s').map (fun p => (s'.out :: p.1, p.2))
    | .fault _ => none
    | .refused _ => none

/-- What the host may read from the outputs after it has held the inputs stable for the time `held`, on a block that
settles in `tSettle`: the response to the request on the ports. Before that the outputs have no meaning (R61), and the
sample answers nothing: DESIGN CHOICE (log entry 3). -/
def sampleAfter (tSettle held : Nat) (s : State) : Option Response :=
  if tSettle ≤ held then
    match step s with
    | .next s' => some s'.out
    | .fault _ => none
    | .refused _ => none
  else none

/-- What the host may read from this block (R61, log entry 3). -/
def sample (held : Nat) (s : State) : Option Response := sampleAfter Config.tSettle held s

end Sys2Proof.Machine
end

