-- ==== Sys2Proof/Safety.lean ====
section
/-! DEFINITION. What counts as a good run of ADPT, in the terms claims use. -/

namespace Sys2Proof

/-- The request on the ports gets a response: the step neither faults nor is refused (spec/60_exceptions.md R54). -/
def Answered (s : Machine.State) : Prop := ∃ t, Machine.step s = .next t

/-- The outputs are the combinational function of `op`, `va` and the ROM that R17 and R59 say they are. -/
def OutputsFollowInputs (s : Machine.State) : Prop := s.out = Machine.respond s.rom (decode s.portWord)

/-- `pa` never carries a value that `status` does not qualify (R11): outside OK it reads 0. -/
def PaQualified (s : Machine.State) : Prop := s.out.status ≠ .ok → s.out.pa = 0

/-- Everything but the output ports is the same in the two states. -/
def SameButOutputs (s t : Machine.State) : Prop := t.op = s.op ∧ t.va = s.va ∧ t.rom = s.rom

end Sys2Proof
end

