-- ==== Sys2Proof/Certificates/Slice0/Obligations.lean ====
section
/-! DEFINITION. The statements about ADPT for the provers. Each docstring names the rule of the spec it formalises. -/

open Sys2Proof Sys2Proof.Machine

/-- R39: `Field(v, start, width)` is the masked shift, which is `v[start+width-1 : start]`; bits past `v` read 0, and no
field of the two layouts reaches past the port. -/
def Obligations.FieldIsMaskedShift : Prop :=
  (∀ (n start width : Nat) (v : BitVec n),
    (field v start width).toNat = (v.toNat >>> start) &&& (2 ^ width - 1) ∧
    (∀ i, i < width → (field v start width).getLsbD i = v.getLsbD (start + i)) ∧
    (∀ i, n ≤ start + i → (field v start width).getLsbD i = false)) ∧
  ∀ f ∈ layout36 ++ layout32, f.start + f.width ≤ Config.va36W

/-- R38: the fields of a layout lie where the rule says, every examined bit is in exactly one field, no other bit is in
any, and the operation takes all its fields from the same operand. -/
def Obligations.LayoutsTileTheExaminedBits : Prop :=
  layout36.map (fun f => (f.start, f.width)) = [(0, 12), (12, 8), (20, 8), (28, 4)] ∧
  layout32.map (fun f => (f.start, f.width)) = [(0, 12), (12, 8)] ∧
  (∀ b : Nat, (layout36.filter (fun f => f.holds b)).length = if b < 32 then 1 else 0) ∧
  (∀ b : Nat, (layout32.filter (fun f => f.holds b)).length = if b < 20 then 1 else 0) ∧
  (∀ (va : VirtualAddress) (s : State), ∃ t, exec (.dec36 va) s = .next t ∧ t.out.off = field va 0 12 ∧
    t.out.l3 = field va 12 8 ∧ t.out.l2 = field va 20 8 ∧ t.out.l1 = field va 28 4) ∧
  (∀ (va : VirtualAddress) (s : State), ∃ t, exec (.dec32 va) s = .next t ∧ t.out.off = field va 0 12 ∧
    t.out.pn = field va 12 8)

/-- R40: DEC36, whole. The response is one for all states, so the ROM is never read, and everything but the outputs stays. -/
def Obligations.Dec36DrivesItsFields : Prop :=
  ∀ va : VirtualAddress, encode (.dec36 va) = 0#2 ++ va ∧ ∃ r : Response,
    r.off.toNat = va.toNat &&& 0xFFF ∧
    r.l3.toNat = (va.toNat >>> 12) &&& 0xFF ∧
    r.l2.toNat = (va.toNat >>> 20) &&& 0xFF ∧
    r.l1.toNat = (va.toNat >>> 28) &&& 0xF ∧
    r.statusPort = 0 ∧ r.pn = 0 ∧ r.pa = 0 ∧
    ∀ s : State, exec (.dec36 va) s = .next { s with out := r }

/-- R41: the bounds of DEC36's fields, and the law that they reassemble to the low 32 bits of the operand. -/
def Obligations.Dec36Reassembles : Prop :=
  ∀ (va : VirtualAddress) (s : State), ∃ t, exec (.dec36 va) s = .next t ∧
    t.out.off.toNat ≤ 4095 ∧ t.out.l3.toNat ≤ 255 ∧ t.out.l2.toNat ≤ 255 ∧ t.out.l1.toNat ≤ 15 ∧
    t.out.off.toNat ||| (t.out.l3.toNat <<< 12) ||| (t.out.l2.toNat <<< 20) ||| (t.out.l1.toNat <<< 28) =
      va.toNat &&& 0xFFFFFFFF

/-- R42: DEC32, whole; no range check, and the ROM is never read. -/
def Obligations.Dec32DrivesItsFields : Prop :=
  ∀ va : VirtualAddress, encode (.dec32 va) = 1#2 ++ va ∧ ∃ r : Response,
    r.pn.toNat = (va.toNat >>> 12) &&& 0xFF ∧
    r.off.toNat = va.toNat &&& 0xFFF ∧
    r.statusPort = 0 ∧ r.l1 = 0 ∧ r.l2 = 0 ∧ r.l3 = 0 ∧ r.pa = 0 ∧
    ∀ s : State, exec (.dec32 va) s = .next { s with out := r }

/-- R43: the bounds of DEC32's fields, their values, and the round trip to the low 20 bits. Every 32-bit `v` is the
operand `va` with `va[35:32] = 0`; the law holds for the others too. -/
def Obligations.Dec32Reassembles : Prop :=
  ∀ (va : VirtualAddress) (s : State), ∃ t, exec (.dec32 va) s = .next t ∧
    t.out.pn.toNat ≤ 255 ∧ t.out.off.toNat ≤ 4095 ∧
    t.out.pn.toNat = (va.toNat >>> 12) &&& 0xFF ∧ t.out.off.toNat = va.toNat &&& 0xFFF ∧
    t.out.off.toNat ||| (t.out.pn.toNat <<< 12) = va.toNat &&& 0xFFFFF

/-- R47: XLATE, whole: the fields in every outcome, the three outcomes in the order of the pseudocode, and the frame. -/
def Obligations.XlateOutcome : Prop :=
  ∀ (va : VirtualAddress) (s : State), encode (.xlate va) = 2#2 ++ va ∧ ∃ r : Response,
    exec (.xlate va) s = .next { s with out := r } ∧
    r.pn.toNat = (va.toNat >>> 12) &&& 0xFF ∧ r.off.toNat = va.toNat &&& 0xFFF ∧
    r.l1 = 0 ∧ r.l2 = 0 ∧ r.l3 = 0 ∧
    (8 ≤ (va.toNat >>> 12) &&& 0xFF → r.statusPort = 1 ∧ r.pa = 0) ∧
    (∀ h : (va.toNat >>> 12) &&& 0xFF < 8,
      ((romRead s.rom ⟨(va.toNat >>> 12) &&& 0xFF, h⟩).P = false → r.statusPort = 2 ∧ r.pa = 0) ∧
      ((romRead s.rom ⟨(va.toNat >>> 12) &&& 0xFF, h⟩).P = true → r.statusPort = 0 ∧
        r.pa.toNat = (romRead s.rom ⟨(va.toNat >>> 12) &&& 0xFF, h⟩).frame.toNat * 4096 + (va.toNat &&& 0xFFF)))

/-- R44, R50: page numbers 8 to 255 end with OUT_OF_RANGE. The response is one for all states, so neither the ROM nor a
presence bit is read; in hardware terms the check is `pn[7:3] != 0`, and `pn[2:0]` is the index that is read. -/
def Obligations.OutOfRangeReadsNoEntry : Prop :=
  (∀ va : VirtualAddress, 8 ≤ (va.toNat >>> 12) &&& 0xFF → ∃ r : Response,
    r.statusPort = 1 ∧ r.pn.toNat = (va.toNat >>> 12) &&& 0xFF ∧ r.off.toNat = va.toNat &&& 0xFFF ∧ r.pa = 0 ∧
    ∀ s : State, exec (.xlate va) s = .next { s with out := r }) ∧
  (∀ (va : VirtualAddress) (s t : State), exec (.xlate va) s = .next t → t.out.statusPort = 1 →
    8 ≤ (va.toNat >>> 12) &&& 0xFF) ∧
  (∀ pn : PageNumber, InRange pn ↔ pn.extractLsb' 3 5 = 0) ∧
  (∀ pn : PageNumber, InRange pn → (pn.extractLsb' 0 3).toNat = pn.toNat)

/-- R45, R51: an in-range page whose entry has `P == 0` ends with PAGE_NOT_RESIDENT and no physical address, whatever
the entry's frame and M are: the response is one for all such states. The status has no other cause. Page 1 is always
such a page. -/
def Obligations.AbsentPageIsNotResident : Prop :=
  (∀ (va : VirtualAddress) (h : (va.toNat >>> 12) &&& 0xFF < 8), ∃ r : Response,
    r.statusPort = 2 ∧ r.pn.toNat = (va.toNat >>> 12) &&& 0xFF ∧ r.off.toNat = va.toNat &&& 0xFFF ∧ r.pa = 0 ∧
    ∀ s : State, (romRead s.rom ⟨(va.toNat >>> 12) &&& 0xFF, h⟩).P = false →
      exec (.xlate va) s = .next { s with out := r }) ∧
  (∀ (va : VirtualAddress) (s t : State), exec (.xlate va) s = .next t → t.out.statusPort = 2 →
    ∃ h : (va.toNat >>> 12) &&& 0xFF < 8, (romRead s.rom ⟨(va.toNat >>> 12) &&& 0xFF, h⟩).P = false) ∧
  (∀ r : Rom, (romRead r 1).P = false)

/-- R46: the physical address of a present page is `frame × 4096 + off`, which is the concatenation of frame and offset
and never wraps. -/
def Obligations.PhysicalAddressIsFrameThenOffset : Prop :=
  ∀ (va : VirtualAddress) (s : State) (h : (va.toNat >>> 12) &&& 0xFF < 8),
    (romRead s.rom ⟨(va.toNat >>> 12) &&& 0xFF, h⟩).P = true →
    ∃ t, exec (.xlate va) s = .next t ∧
      t.out.pa.toNat = (romRead s.rom ⟨(va.toNat >>> 12) &&& 0xFF, h⟩).frame.toNat * 4096 + t.out.off.toNat ∧
      t.out.pa = (romRead s.rom ⟨(va.toNat >>> 12) &&& 0xFF, h⟩).frame ++ t.out.off ∧
      (romRead s.rom ⟨(va.toNat >>> 12) &&& 0xFF, h⟩).frame.toNat * 4096 + t.out.off.toNat ≤ 0xFFFFFFFF

/-- R52: the reserved operation. One response for every operand and every state. -/
def Obligations.ReservedOpAnswersIllegalOp : Prop :=
  ∃ r : Response, r.statusPort = 3 ∧ r.off = 0 ∧ r.l1 = 0 ∧ r.l2 = 0 ∧ r.l3 = 0 ∧ r.pn = 0 ∧ r.pa = 0 ∧
    ∀ (va : VirtualAddress), encode (.reservedOp3 va) = 3#2 ++ va ∧
      ∀ s : State, exec (.reservedOp3 va) s = .next { s with out := r }

/-- R53 (with the causes of R49 to R52): which status a request reports, in the order of priority. -/
def Obligations.OneStatusByPriority : Prop :=
  ∀ s : State, ∃ t, step s = .next t ∧
    (s.op = 3 → t.out.statusPort = 3) ∧
    (s.op = 2 → 8 ≤ (s.va.toNat >>> 12) &&& 0xFF → t.out.statusPort = 1) ∧
    (s.op = 2 → ∀ h : (s.va.toNat >>> 12) &&& 0xFF < 8,
      (romRead s.rom ⟨(s.va.toNat >>> 12) &&& 0xFF, h⟩).P = false → t.out.statusPort = 2) ∧
    (s.op = 2 → ∀ h : (s.va.toNat >>> 12) &&& 0xFF < 8,
      (romRead s.rom ⟨(s.va.toNat >>> 12) &&& 0xFF, h⟩).P = true → t.out.statusPort = 0) ∧
    (s.op = 0 ∨ s.op = 1 → t.out.statusPort = 0)

/-- R49: the four codes, each with one name. -/
def Obligations.StatusCodesAreTheTable : Prop :=
  Status.code .ok = 0 ∧ Status.code .outOfRange = 1 ∧ Status.code .pageNotResident = 2 ∧ Status.code .illegalOp = 3 ∧
  ∀ c : StatusCode, ∃! st : Status, st.code = c

/-- R31: every 38-bit word belongs to exactly one row of the opcode table, and the decoder gives that row's request with
the operand of the word. -/
def Obligations.EveryWordHasExactlyOneRow : Prop :=
  opcodeRows.map OpcodeRow.mnemonic = ["DEC36", "DEC32", "XLATE", "RESERVED_OP3"] ∧
  ∀ w : RequestWord, (∃! r : OpcodeRow, r ∈ opcodeRows ∧ r.covers w = true) ∧
    (∀ r ∈ opcodeRows, r.covers w = true ↔ (decode w).mnemonic = r.mnemonic) ∧
    (opField w = 0 → decode w = .dec36 (vaField w)) ∧ (opField w = 1 → decode w = .dec32 (vaField w)) ∧
    (opField w = 2 → decode w = .xlate (vaField w)) ∧ (opField w = 3 → decode w = .reservedOp3 (vaField w))

/-- Decoding and encoding agree on every request and on every word (30_encoding.md sections 1 to 3). -/
def Obligations.DecodeAndEncodeAreInverse : Prop :=
  (∀ i : Instr, i.WellFormed ∧ decode (encode i) = i) ∧ ∀ w : RequestWord, encode (decode w) = w

/-- R30: the request word as fields and as a number, and the rule's example. -/
def Obligations.RequestWordIsOpThenOperand : Prop :=
  encode (.xlate 0x123#36) = 0x2000000123#38 ∧
  ∀ i : Instr, (encode i).toNat = i.opCode.toNat * 2 ^ 36 + i.va.toNat ∧
    (encode i).extractLsb' 36 2 = i.opCode ∧ (encode i).extractLsb' 0 36 = i.va

/-- Words written out from the spec's encodings and its test vectors (30_encoding.md, 95_test_vectors.md). -/
def Obligations.SpecWordsDecode : Prop :=
  decode 0x0123456789#38 = .dec36 0x123456789#36 ∧
  decode 0x1012345678#38 = .dec32 0x012345678#36 ∧
  decode 0x2000000123#38 = .xlate 0x000000123#36 ∧
  decode 0x3fffffffff#38 = .reservedOp3 0xFFFFFFFFF#36

/-- R35 (with the table of R32): a request with any ignored bits is answered, and exactly as the same request with those
bits cleared. -/
def Obligations.IgnoredBitsChangeNothing : Prop :=
  ∀ (va : VirtualAddress) (s : State),
    (∃ t, exec (.dec36 va) s = .next t ∧ exec (.dec36 (va &&& 0x0FFFFFFFF#36)) s = .next t) ∧
    (∃ t, exec (.dec32 va) s = .next t ∧ exec (.dec32 (va &&& 0x0000FFFFF#36)) s = .next t) ∧
    (∃ t, exec (.xlate va) s = .next t ∧ exec (.xlate (va &&& 0x0000FFFFF#36)) s = .next t) ∧
    (∃ t, exec (.reservedOp3 va) s = .next t ∧ exec (.reservedOp3 0#36) s = .next t)

/-- The step runs the request on the input ports (30_encoding.md R30, R31; 70_reset_and_hazards.md R61). The machine has
no program counter to move. -/
def Obligations.StepRunsTheRequestOnThePorts : Prop :=
  ∀ (s : State) (i : Instr), decode (requestWord s.op s.va) = i → step s = exec i s

/-- Driving a table word on the ports makes the next step run exactly its request, and changes nothing but the ports
(the model's choice, log entry 6). -/
def Obligations.DrivenTableWordRunsNext : Prop :=
  ∀ (s : State) (nbits w : Nat) (i : Instr), decodeTableWord nbits w = some i →
    step (s.withFetchWord nbits w) = exec i (s.withFetchWord nbits w) ∧
    requestWord (s.withFetchWord nbits w).op (s.withFetchWord nbits w).va = encode i ∧
    (s.withFetchWord nbits w).rom = s.rom ∧ (s.withFetchWord nbits w).out = s.out

/-- 93_implementation_defined.md section 1: every request gets a defined response, from every state. -/
def Obligations.EveryRequestIsAnswered : Prop := ∀ s : State, Answered s

/-- R6, R12, R54: no step writes the ROM or the input ports, whatever the status. -/
def Obligations.StepChangesOnlyTheOutputs : Prop :=
  ∀ s t : State, step s = .next t → SameButOutputs s t

/-- R59: the outputs are a function of `op`, `va` and the ROM alone. Every step brings that about, also from a state in
which it does not hold. -/
def Obligations.StepMakesOutputsFollowInputs : Prop :=
  ∀ s t : State, step s = .next t → OutputsFollowInputs t ∧ PaQualified t

/-- The power-up state meets the invariant. Its ports are the model's choice (log entries 4 and 5). -/
def Obligations.ResetOutputsFollowInputs : Prop :=
  OutputsFollowInputs State.reset ∧ PaQualified State.reset

/-- R13 to R15: the ROM at power-up. -/
def Obligations.ResetRomIsAsBuilt : Prop :=
  romRead State.reset.rom 0 = { P := true, M := Config.ptM0, frame := 0 } ∧
  romRead State.reset.rom 1 = { P := false, M := Config.ptM1, frame := 8 } ∧
  ∀ i : Fin 8, 2 ≤ i.val → romRead State.reset.rom i = Config.ptRomInit i.val

/-- R11: an output the operation does not drive reads 0. -/
def Obligations.UndrivenOutputsReadZero : Prop :=
  ∀ s : State, ∃ t, step s = .next t ∧
    (s.op ≠ 0 → t.out.l1 = 0 ∧ t.out.l2 = 0 ∧ t.out.l3 = 0) ∧
    (s.op = 0 ∨ s.op = 3 → t.out.pn = 0) ∧
    (s.op = 3 → t.out.off = 0) ∧
    (s.op ≠ 2 ∨ t.out.status ≠ .ok → t.out.pa = 0)

/-- R27: responses come back in request order, one per request, each a function of its request and the ROM only. -/
def Obligations.ResponsesInRequestOrder : Prop :=
  ∀ (ws : List RequestWord) (s : State), ∃ e, serve ws s = some (ws.map (fun w => respond s.rom (decode w)), e) ∧
    e.rom = s.rom

/-- R55: after any requests, the next one is handled exactly as if no earlier request had happened: the response and the
whole state after it are the same. -/
def Obligations.NoRequestDependsOnHistory : Prop :=
  ∀ (earlier : List RequestWord) (w : RequestWord) (s : State), ∃ (rs : List Response) (r : Response) (e : State),
    serve (earlier ++ [w]) s = some (rs ++ [r], e) ∧ serve [w] s = some ([r], e)

/-- R48: two XLATE requests with the same `va[19:0]` give the same response on one ROM, whatever else the states hold. -/
def Obligations.SameLowBitsTranslateAlike : Prop :=
  ∀ (va va' : VirtualAddress) (s s' : State), s.rom = s'.rom → va.extractLsb' 0 20 = va'.extractLsb' 0 20 →
    ∃ r : Response, exec (.xlate va) s = .next { s with out := r } ∧ exec (.xlate va') s' = .next { s' with out := r }

/-- R16 and R47: of the whole ROM, XLATE's response depends on the P bit and the frame of one entry at most: not on any
M bit, not on another entry, and on none when the page number is out of range. -/
def Obligations.OnlyTheSelectedEntryMatters : Prop :=
  ∀ (va : VirtualAddress) (s s' : State),
    (∀ h : (va.toNat >>> 12) &&& 0xFF < 8,
      (romRead s.rom ⟨(va.toNat >>> 12) &&& 0xFF, h⟩).P = (romRead s'.rom ⟨(va.toNat >>> 12) &&& 0xFF, h⟩).P ∧
      (romRead s.rom ⟨(va.toNat >>> 12) &&& 0xFF, h⟩).frame = (romRead s'.rom ⟨(va.toNat >>> 12) &&& 0xFF, h⟩).frame) →
    ∃ r : Response, exec (.xlate va) s = .next { s with out := r } ∧ exec (.xlate va) s' = .next { s' with out := r }

/-- R19: the stored word of an entry, its bits and its value; the words of entries 0 and 1; and a word's record. -/
def Obligations.RomWordLayout : Prop :=
  (∀ e : PageTableEntry, (romWord e).getLsbD 0 = e.P ∧ (romWord e).getLsbD 1 = e.M ∧
    (romWord e).extractLsb' 2 20 = e.frame ∧ romEntryOfWord (romWord e) = e) ∧
  (∀ w : RomWord, romWord (romEntryOfWord w) = w) ∧
  (∀ r : Rom, (romWord (romRead r 0)).toNat = 0x000001 ||| (r.m0.toNat <<< 1) ∧
    (romWord (romRead r 1)).toNat = 0x000020 ||| (r.m1.toNat <<< 1))

/-- R2, R12 to R15, R60: the tables a block can be built with are exactly the well-formed ones, and the ROM read back is
the table. -/
def Obligations.BuildAcceptsExactlyLegalTables : Prop :=
  ∀ t : List RawEntry, ((∃ r, buildRom t = .ok r) ↔ rawTableWf t = true) ∧
    ∀ r, buildRom t = .ok r → ∀ i : Fin 8, ∃ e, t[i.val]? = some e ∧
      (romRead r i).P = e.presence ∧ (romRead r i).M = e.modified ∧ (romRead r i).frame.toNat = e.frame

/-- R36: the words the assembler writes, and the operands it refuses. That every other `.word` line is refused is the
model's reading (log entry 9, DEDUCED) of the rule's "only": the reserved encoding is all that `.word` spells. -/
def Obligations.AssemblerWritesOpAndOperand : Prop :=
  (∀ n : Nat, n < 2 ^ 36 →
    (∃ i, assemble (.dec36 n) = .ok i ∧ (encode i).toNat = 0 * 2 ^ 36 + n) ∧
    (∃ i, assemble (.dec32 n) = .ok i ∧ (encode i).toNat = 1 * 2 ^ 36 + n) ∧
    (∃ i, assemble (.xlate n) = .ok i ∧ (encode i).toNat = 2 * 2 ^ 36 + n)) ∧
  (∀ n : Nat, 2 ^ 36 ≤ n → assemble (.dec36 n) = .error .operandTooWide ∧
    assemble (.dec32 n) = .error .operandTooWide ∧ assemble (.xlate n) = .error .operandTooWide) ∧
  (∀ w : Nat, 0x3000000000 ≤ w → w ≤ 0x3FFFFFFFFF →
    ∃ va, assemble (.word w) = .ok (.reservedOp3 va) ∧ (encode (.reservedOp3 va)).toNat = w) ∧
  (∀ w : Nat, w < 0x3000000000 ∨ 0x3FFFFFFFFF < w → assemble (.word w) = .error .notReservedWord)

/-- R37: `LOOKUP pn, off` is `XLATE ((pn << 12) | off)`, legal exactly for `pn < 256` and `off < 4096`; XLATE then takes
exactly `pn` and `off` from it. -/
def Obligations.LookupExpandsToXlate : Prop :=
  (∀ pn off : Nat, pn < 256 → off < 4096 → ∃ va : VirtualAddress, assemble (.lookup pn off) = .ok (.xlate va) ∧
    va.toNat = (pn <<< 12) ||| off ∧
    ∀ s : State, ∃ t, exec (.xlate va) s = .next t ∧ t.out.pn.toNat = pn ∧ t.out.off.toNat = off) ∧
  (∀ pn off : Nat, 256 ≤ pn ∨ 4096 ≤ off → ∃ e, assemble (.lookup pn off) = .error e) ∧
  ∃ i, assemble (.lookup 0 0x123) = .ok i ∧ assemble (.xlate 0x123) = .ok i ∧ encode i = 0x2000000123#38

/-- R25: what each page number means to XLATE, for every ROM. -/
def Obligations.PageNumberMap : Prop :=
  ∀ (va : VirtualAddress) (s : State), ∃ t, exec (.xlate va) s = .next t ∧
    ((va.toNat >>> 12) &&& 0xFF = 0 → t.out.statusPort = 0 ∧ t.out.pa.toNat = va.toNat &&& 0xFFF) ∧
    ((va.toNat >>> 12) &&& 0xFF = 1 → t.out.statusPort = 2 ∧ t.out.pa = 0) ∧
    (∀ h : (va.toNat >>> 12) &&& 0xFF < 8, 2 ≤ (va.toNat >>> 12) &&& 0xFF →
      t.out.statusPort = if (romRead s.rom ⟨(va.toNat >>> 12) &&& 0xFF, h⟩).P then 0 else 2) ∧
    (8 ≤ (va.toNat >>> 12) &&& 0xFF → t.out.statusPort = 1 ∧ t.out.pa = 0)

/-- Holding the inputs: any number of further steps shows the outputs of the first (70_reset_and_hazards.md R59, R62). -/
def Obligations.HeldInputsKeepTheOutputs : Prop :=
  ∀ (k : Nat) (s : State), Host.Core.run core (k + 1) s = step s

/-- A request through a host's byte-wide channel, in either byte order, is the request (the framing is the model's
choice, log entry 8; 20_memory.md R22). -/
def Obligations.ByteChannelRoundTrip : Prop :=
  ∀ (o : ByteOrder) (i : Instr), (encodeBytes o i).length = 5 ∧ decodeBytes o (encodeBytes o i) = .ok i

/-- `;` starts a comment: nothing after it changes what a line means (30_encoding.md R36). -/
def Obligations.CommentsMeanNothing : Prop :=
  ∀ line comment : List Char, parseLine (line ++ ';' :: comment) = parseLine line

/-- R61 gives outputs no meaning before `T_SETTLE`, and 93 I9 puts a host that samples early outside the model. That a
sample then answers nothing, with `T_SETTLE` a natural number, is the model's choice (log entry 3, DESIGN CHOICE). A
sample of settled outputs is the response to the request on the ports, whatever `T_SETTLE` is. -/
def Obligations.SamplingWaitsForSettle : Prop :=
  (∀ (tSettle held : Nat) (s : State), sampleAfter tSettle held s =
    if tSettle ≤ held then some (respond s.rom (decode (requestWord s.op s.va))) else none) ∧
  ∀ (held : Nat) (s : State), sample held s = sampleAfter Config.tSettle held s

/-- R59: a reset by the surrounding system changes nothing observable. After a fresh power-up with the same ROM, every
session is answered as without it, and ends in the same state. -/
def Obligations.ResetChangesNothingObservable : Prop :=
  ∀ (w : RequestWord) (ws : List RequestWord) (s : State), serve (w :: ws) (powerUp s.rom) = serve (w :: ws) s
end

