-- ==== Sys2Proof/Laws/State.lean ====
section
/-! SUPPORT. One lemma for each field under each update of a response or of the state, so that no proof unfolds a record
update. -/

namespace Sys2Proof.Machine

section Undriven

@[simp] theorem undriven_status : undriven.status = .ok := rfl
@[simp] theorem undriven_off : undriven.off = 0 := rfl
@[simp] theorem undriven_l3 : undriven.l3 = 0 := rfl
@[simp] theorem undriven_l2 : undriven.l2 = 0 := rfl
@[simp] theorem undriven_l1 : undriven.l1 = 0 := rfl
@[simp] theorem undriven_pn : undriven.pn = 0 := rfl
@[simp] theorem undriven_pa : undriven.pa = 0 := rfl

end Undriven

section Driving

variable (r : Response)

@[simp] theorem driveOff_status (v : PageOffset) : (driveOff r v).status = r.status := rfl
@[simp] theorem driveOff_off (v : PageOffset) : (driveOff r v).off = v := rfl
@[simp] theorem driveOff_l3 (v : PageOffset) : (driveOff r v).l3 = r.l3 := rfl
@[simp] theorem driveOff_l2 (v : PageOffset) : (driveOff r v).l2 = r.l2 := rfl
@[simp] theorem driveOff_l1 (v : PageOffset) : (driveOff r v).l1 = r.l1 := rfl
@[simp] theorem driveOff_pn (v : PageOffset) : (driveOff r v).pn = r.pn := rfl
@[simp] theorem driveOff_pa (v : PageOffset) : (driveOff r v).pa = r.pa := rfl

@[simp] theorem driveL3_status (v : LevelIndex) : (driveL3 r v).status = r.status := rfl
@[simp] theorem driveL3_off (v : LevelIndex) : (driveL3 r v).off = r.off := rfl
@[simp] theorem driveL3_l3 (v : LevelIndex) : (driveL3 r v).l3 = v := rfl
@[simp] theorem driveL3_l2 (v : LevelIndex) : (driveL3 r v).l2 = r.l2 := rfl
@[simp] theorem driveL3_l1 (v : LevelIndex) : (driveL3 r v).l1 = r.l1 := rfl
@[simp] theorem driveL3_pn (v : LevelIndex) : (driveL3 r v).pn = r.pn := rfl
@[simp] theorem driveL3_pa (v : LevelIndex) : (driveL3 r v).pa = r.pa := rfl

@[simp] theorem driveL2_status (v : LevelIndex) : (driveL2 r v).status = r.status := rfl
@[simp] theorem driveL2_off (v : LevelIndex) : (driveL2 r v).off = r.off := rfl
@[simp] theorem driveL2_l3 (v : LevelIndex) : (driveL2 r v).l3 = r.l3 := rfl
@[simp] theorem driveL2_l2 (v : LevelIndex) : (driveL2 r v).l2 = v := rfl
@[simp] theorem driveL2_l1 (v : LevelIndex) : (driveL2 r v).l1 = r.l1 := rfl
@[simp] theorem driveL2_pn (v : LevelIndex) : (driveL2 r v).pn = r.pn := rfl
@[simp] theorem driveL2_pa (v : LevelIndex) : (driveL2 r v).pa = r.pa := rfl

@[simp] theorem driveL1_status (v : Level1Index) : (driveL1 r v).status = r.status := rfl
@[simp] theorem driveL1_off (v : Level1Index) : (driveL1 r v).off = r.off := rfl
@[simp] theorem driveL1_l3 (v : Level1Index) : (driveL1 r v).l3 = r.l3 := rfl
@[simp] theorem driveL1_l2 (v : Level1Index) : (driveL1 r v).l2 = r.l2 := rfl
@[simp] theorem driveL1_l1 (v : Level1Index) : (driveL1 r v).l1 = v := rfl
@[simp] theorem driveL1_pn (v : Level1Index) : (driveL1 r v).pn = r.pn := rfl
@[simp] theorem driveL1_pa (v : Level1Index) : (driveL1 r v).pa = r.pa := rfl

@[simp] theorem drivePn_status (v : PageNumber) : (drivePn r v).status = r.status := rfl
@[simp] theorem drivePn_off (v : PageNumber) : (drivePn r v).off = r.off := rfl
@[simp] theorem drivePn_l3 (v : PageNumber) : (drivePn r v).l3 = r.l3 := rfl
@[simp] theorem drivePn_l2 (v : PageNumber) : (drivePn r v).l2 = r.l2 := rfl
@[simp] theorem drivePn_l1 (v : PageNumber) : (drivePn r v).l1 = r.l1 := rfl
@[simp] theorem drivePn_pn (v : PageNumber) : (drivePn r v).pn = v := rfl
@[simp] theorem drivePn_pa (v : PageNumber) : (drivePn r v).pa = r.pa := rfl

@[simp] theorem drivePa_status (v : PhysicalAddress) : (drivePa r v).status = r.status := rfl
@[simp] theorem drivePa_off (v : PhysicalAddress) : (drivePa r v).off = r.off := rfl
@[simp] theorem drivePa_l3 (v : PhysicalAddress) : (drivePa r v).l3 = r.l3 := rfl
@[simp] theorem drivePa_l2 (v : PhysicalAddress) : (drivePa r v).l2 = r.l2 := rfl
@[simp] theorem drivePa_l1 (v : PhysicalAddress) : (drivePa r v).l1 = r.l1 := rfl
@[simp] theorem drivePa_pn (v : PhysicalAddress) : (drivePa r v).pn = r.pn := rfl
@[simp] theorem drivePa_pa (v : PhysicalAddress) : (drivePa r v).pa = v := rfl

@[simp] theorem raise_status (v : Status) : (raise r v).status = v := rfl
@[simp] theorem raise_off (v : Status) : (raise r v).off = r.off := rfl
@[simp] theorem raise_l3 (v : Status) : (raise r v).l3 = r.l3 := rfl
@[simp] theorem raise_l2 (v : Status) : (raise r v).l2 = r.l2 := rfl
@[simp] theorem raise_l1 (v : Status) : (raise r v).l1 = r.l1 := rfl
@[simp] theorem raise_pn (v : Status) : (raise r v).pn = r.pn := rfl
@[simp] theorem raise_pa (v : Status) : (raise r v).pa = r.pa := rfl

end Driving

section Ports

variable (s : State) (w : RequestWord)

@[simp] theorem drive_op : (s.drive w).op = opField w := rfl
@[simp] theorem drive_va : (s.drive w).va = vaField w := rfl
@[simp] theorem drive_rom : (s.drive w).rom = s.rom := rfl
@[simp] theorem drive_out : (s.drive w).out = s.out := rfl

/-- Driving the ports again forgets the first request. -/
@[simp] theorem drive_drive (w' : RequestWord) : (s.drive w).drive w' = s.drive w' := rfl

/-- Writing the outputs does not disturb the ports' request. -/
@[simp] theorem portWord_withOut (r : Response) : ({ s with out := r } : State).portWord = s.portWord := rfl

end Ports

section Answer

variable (s t : State) (r : Response)

/-- Everything `answer` can do: the next state is the old one with the response on its outputs. -/
theorem answer_next_iff : answer s r = .next t ↔ t = { s with out := r } := by
  constructor
  · rintro ⟨⟩
    rfl
  · rintro rfl
    rfl

theorem answer_not_fault (f : Fault) : answer s r ≠ .fault f := nomatch f

theorem answer_not_refused (f : Refusal) : answer s r ≠ .refused f := by
  rintro ⟨⟩

end Answer

end Sys2Proof.Machine
end

