-- ==== Sys2Proof/Laws/Ops.lean ====
section
/-! SUPPORT. One lemma for each thing a shared operation or a response can be: ROM entries, the fields of an operand,
and the responses of the four requests. -/

namespace Sys2Proof.Machine

section Rom

variable (r : Rom)

@[simp] theorem romRead_zero : romRead r 0 = { P := true, M := r.m0, frame := 0 } := rfl
@[simp] theorem romRead_one : romRead r 1 = { P := false, M := r.m1, frame := 8 } := rfl
@[simp] theorem romRead_two : romRead r 2 = r.e2 := rfl
@[simp] theorem romRead_three : romRead r 3 = r.e3 := rfl
@[simp] theorem romRead_four : romRead r 4 = r.e4 := rfl
@[simp] theorem romRead_five : romRead r 5 = r.e5 := rfl
@[simp] theorem romRead_six : romRead r 6 = r.e6 := rfl
@[simp] theorem romRead_seven : romRead r 7 = r.e7 := rfl

end Rom

section Fields

variable (va : VirtualAddress)

theorem offOf_eq : offOf va = va.extractLsb' 0 12 := rfl
theorem l3Of_eq : l3Of va = va.extractLsb' 12 8 := rfl
theorem l2Of_eq : l2Of va = va.extractLsb' 20 8 := rfl
theorem l1Of_eq : l1Of va = va.extractLsb' 28 4 := rfl
theorem pnOf_eq : pnOf va = va.extractLsb' 12 8 := rfl

end Fields

section Responses

variable (rom : Rom) (va : VirtualAddress)

theorem dec36Response_eq : dec36Response va =
    { status := .ok, off := offOf va, l3 := l3Of va, l2 := l2Of va, l1 := l1Of va, pn := 0, pa := 0 } := rfl

theorem dec32Response_eq : dec32Response va =
    { status := .ok, off := offOf va, l3 := 0, l2 := 0, l1 := 0, pn := pnOf va, pa := 0 } := rfl

theorem reservedOp3Response_eq : reservedOp3Response =
    { status := .illegalOp, off := 0, l3 := 0, l2 := 0, l1 := 0, pn := 0, pa := 0 } := rfl

/-- XLATE past the table (R50): no entry is named. -/
theorem xlateResponse_outOfRange (h : ¬ InRange (pnOf va)) : xlateResponse rom va =
    { status := .outOfRange, off := offOf va, l3 := 0, l2 := 0, l1 := 0, pn := pnOf va, pa := 0 } := by
  rw [xlateResponse, dif_neg h]
  rfl

/-- XLATE of a page that is not resident (R51). -/
theorem xlateResponse_absent (h : InRange (pnOf va)) (hp : (romRead rom ⟨(pnOf va).toNat, h⟩).P = false) :
    xlateResponse rom va =
    { status := .pageNotResident, off := offOf va, l3 := 0, l2 := 0, l1 := 0, pn := pnOf va, pa := 0 } := by
  simp only [xlateResponse, dif_pos h, present, hp]
  rfl

/-- XLATE of a resident page (R46). -/
theorem xlateResponse_present (h : InRange (pnOf va)) (hp : (romRead rom ⟨(pnOf va).toNat, h⟩).P = true) :
    xlateResponse rom va =
    { status := .ok, off := offOf va, l3 := 0, l2 := 0, l1 := 0, pn := pnOf va,
      pa := physicalAddress (romRead rom ⟨(pnOf va).toNat, h⟩).frame (offOf va) } := by
  simp only [xlateResponse, dif_pos h, present, hp]
  rfl

/-- `frame × 4096 + off` fits the 32 bits of `pa` (R46). -/
theorem physicalAddress_toNat (frame : FrameNumber) (off : PageOffset) :
    (physicalAddress frame off).toNat = frame.toNat * 4096 + off.toNat := by
  have hf := frame.isLt
  have ho := off.isLt
  simp only [physicalAddress, BitVec.toNat_ofNat, Config.pageSize]
  omega

end Responses

end Sys2Proof.Machine
end

