-- ==== Sys2Proof/Laws/Exec.lean ====
section
/-! SUPPORT. What a step can do, said once: it puts the response of the request on the outputs and changes nothing else.
Claims about steps and sessions cite these lemmas and never unfold a meaning. -/

namespace Sys2Proof.Machine

/-- Every meaning answers with the combinational response. -/
theorem exec_eq (i : Instr) (s : State) : exec i s = .next { s with out := respond s.rom i } := by
  cases i <;> rfl

/-- The step, whole. -/
theorem step_eq (s : State) : step s = .next { s with out := respond s.rom (decode s.portWord) } := exec_eq _ s

/-- Inversion: the only next state a step can reach. -/
theorem step_next_iff (s t : State) :
    step s = .next t ↔ t = { s with out := respond s.rom (decode s.portWord) } := by
  rw [step_eq]
  constructor
  · rintro ⟨⟩
    rfl
  · rintro rfl
    rfl

/-- One step of a run of the whole machine. -/
theorem core_run_succ (k : Nat) (s : State) : Host.Core.run core (k + 1) s =
    Host.Core.run core k ({ s with out := respond s.rom (decode s.portWord) } : State) := by
  have h : core.step s = .next { s with out := respond s.rom (decode s.portWord) } := step_eq s
  simp only [Host.Core.run]
  rw [h]

/-- The request the host drives is the request on the ports. -/
theorem portWord_drive (s : State) (w : RequestWord) (h : requestWord (opField w) (vaField w) = w) :
    (s.drive w).portWord = w := h

/-- The first request of a session and the rest of it. -/
theorem serve_cons (w : RequestWord) (ws : List RequestWord) (s : State) :
    serve (w :: ws) s =
      (serve ws { s.drive w with out := respond s.rom (decode (s.drive w).portWord) }).map
        (fun p => (respond s.rom (decode (s.drive w).portWord) :: p.1, p.2)) := by
  rw [serve, step_eq]
  rfl

end Sys2Proof.Machine
end

