-- ==== Sys2Proof/Laws/Words.lean ====
section
/-! SUPPORT. The request word and its two fields (spec/30_encoding.md R30), and the bytes of a host's channel. -/

namespace Sys2Proof

/-- No operand makes a request ill-formed (R35). -/
theorem instr_wellFormed (i : Instr) : i.WellFormed := i.va.isLt

theorem field_eq_extract {n : Nat} (v : BitVec n) (start width : Nat) :
    field v start width = v.extractLsb' start width := rfl

@[simp] theorem opField_requestWord (op : OpCode) (va : VirtualAddress) : opField (requestWord op va) = op :=
  BitVec.extractLsb'_append_eq_left

@[simp] theorem vaField_requestWord (op : OpCode) (va : VirtualAddress) : vaField (requestWord op va) = va :=
  BitVec.extractLsb'_append_eq_right

/-- Bit `i` of a request word: the operand's below 36, the code's above. -/
theorem requestWord_getLsbD (op : OpCode) (va : VirtualAddress) (i : Nat) :
    (requestWord op va).getLsbD i = if i < 36 then va.getLsbD i else op.getLsbD (i - 36) :=
  BitVec.getLsbD_append

/-- A request word as a number (R30). -/
theorem requestWord_toNat (op : OpCode) (va : VirtualAddress) :
    (requestWord op va).toNat = op.toNat * 2 ^ 36 + va.toNat := by
  have h : (requestWord op va).toNat = op.toNat <<< 36 ||| va.toNat := BitVec.toNat_append op va
  rw [h, ← Nat.shiftLeft_add_eq_or_of_lt va.isLt, Nat.shiftLeft_eq]

/-- A word is its two fields: no bit of it is lost. -/
@[simp] theorem requestWord_fields (w : RequestWord) : requestWord (opField w) (vaField w) = w := by
  apply BitVec.eq_of_getLsbD_eq
  intro i hi
  rw [requestWord_getLsbD]
  split
  · simp [vaField, field, *]
  · have h2 : i - 36 < 2 := by omega
    have h3 : 36 + (i - 36) = i := by omega
    simp [opField, field, h2, h3]

/-- The bytes of a number give it back when there are enough of them. -/
theorem bytesToNat_natToBytes (count n : Nat) (h : n < 256 ^ count) : bytesToNat (natToBytes count n) = n := by
  induction count generalizing n with
  | zero => simp [natToBytes, bytesToNat] at *; omega
  | succ k ih =>
    have hk : n / 256 < 256 ^ k := by
      rw [Nat.div_lt_iff_lt_mul (by decide)]
      simpa [Nat.pow_succ] using h
    simp only [natToBytes, bytesToNat, ih _ hk, BitVec.toNat_ofNat]
    omega

@[simp] theorem natToBytes_length (count n : Nat) : (natToBytes count n).length = count := by
  induction count generalizing n with
  | zero => rfl
  | succ k ih => simp [natToBytes, ih]

@[simp] theorem arrange_arrange (o : ByteOrder) (bs : List Byte) : o.arrange (o.arrange bs) = bs := by
  cases o <;> simp [ByteOrder.arrange]

@[simp] theorem arrange_length (o : ByteOrder) (bs : List Byte) : (o.arrange bs).length = bs.length := by
  cases o <;> simp [ByteOrder.arrange]

end Sys2Proof
end

