-- ==== Sys2Proof/Laws/PerInstr.lean ====
section
/-! SUPPORT. Statements about every request, one lemma for each constructor. -/

namespace Sys2Proof.Laws.Encoding

/-- The encoding keeps both fields of a request: its code in `W[37:36]` and its operand in `W[35:0]`
(spec/30_encoding.md R30, R31). -/
def Statement (i : Instr) : Prop := opField (encode i) = i.opCode ∧ vaField (encode i) = i.va

theorem dec36 (va : VirtualAddress) : Statement (.dec36 va) := by simp [Statement, encode]

theorem dec32 (va : VirtualAddress) : Statement (.dec32 va) := by simp [Statement, encode]

theorem xlate (va : VirtualAddress) : Statement (.xlate va) := by simp [Statement, encode]

theorem reservedOp3 (va : VirtualAddress) : Statement (.reservedOp3 va) := by simp [Statement, encode]

end Sys2Proof.Laws.Encoding
end

