-- ==== Sys2Proof/Tests/Slice0.lean ====
section
/-! SUPPORT. The model's own tests. Expected values are those of spec/95_test_vectors.md, of the worked examples in the
rules, or worked out by hand from the rules; and one witness for each hypothesis of an obligation. -/

open Sys2Proof Sys2Proof.Machine

namespace Sys2Proof.Tests

/-! ### A ROM with chosen open entries, and the response to one word -/

/-- Entries 2 and 7 present, the others absent. -/
def testRom : Rom where
  m0 := true
  m1 := false
  e2 := ⟨true, false, 0xABCDE⟩
  e3 := ⟨false, true, 0x00001⟩
  e4 := ⟨false, false, 0⟩
  e5 := ⟨false, false, 0⟩
  e6 := ⟨false, false, 0⟩
  e7 := ⟨true, true, 0xFFFFF⟩

/-- The machine built with `testRom`. -/
def testState : State := powerUp testRom

/-- The response of one step to one request word. -/
def answerTo (w : RequestWord) : Option Response :=
  match step (testState.drive w) with
  | .next t => some t.out
  | .fault _ => none
  | .refused _ => none

/-! ### Well-formedness: one ill-formed term for each check. A request has none (R35; the type of its operand). -/

theorem test_operandOk_refuses : operandOk (2 ^ 36) = false ∧ operandOk (2 ^ 36 - 1) = true := by decide

theorem test_lookupPageOk_refuses : AsmLine.wf (.lookup 256 0) = false ∧ AsmLine.wf (.lookup 255 0) = true := by decide

theorem test_lookupOffsetOk_refuses :
    AsmLine.wf (.lookup 0 4096) = false ∧ AsmLine.wf (.lookup 0 4095) = true := by decide

theorem test_reservedWordOk_refuses : reservedWordOk 0x2FFFFFFFFF = false ∧ reservedWordOk 0x4000000000 = false ∧
    reservedWordOk 0x3000000000 = true ∧ reservedWordOk 0x3FFFFFFFFF = true := by decide

theorem test_asm_lines_refused : AsmLine.wf (.dec36 (2 ^ 36)) = false ∧ AsmLine.wf (.dec32 (2 ^ 36)) = false ∧
    AsmLine.wf (.xlate (2 ^ 36)) = false ∧ AsmLine.wf (.word 0) = false := by decide

theorem test_frameOk_refuses : RawEntry.frameOk ⟨true, false, 2 ^ 20⟩ = false := by decide

theorem test_isRom0_refuses : RawEntry.isRom0 ⟨false, false, 0⟩ = false ∧ RawEntry.isRom0 ⟨true, false, 1⟩ = false := by
  decide

theorem test_isRom1_refuses : RawEntry.isRom1 ⟨true, false, 8⟩ = false ∧ RawEntry.isRom1 ⟨false, false, 0⟩ = false := by
  decide

/-- A legal table (R2, R13, R14). -/
def legalTable : List RawEntry :=
  [⟨true, true, 0⟩, ⟨false, false, 8⟩, ⟨true, false, 0xABCDE⟩, ⟨false, true, 1⟩, ⟨false, false, 0⟩, ⟨false, false, 0⟩,
    ⟨false, false, 0⟩, ⟨true, true, 0xFFFFF⟩]

theorem test_rawTableWf_length : rawTableWf (legalTable.drop 1) = false ∧ rawTableWf legalTable = true := by decide

theorem test_buildRom : buildRom legalTable = .ok testRom ∧ buildRom (legalTable.take 7) = .error .wrongLength ∧
    buildRom (legalTable.take 7 ++ [⟨true, true, 2 ^ 20⟩]) = .error .frameTooWide ∧
    buildRom (⟨true, true, 1⟩ :: legalTable.drop 1) = .error .entry0 ∧
    buildRom (⟨true, true, 0⟩ :: ⟨true, false, 8⟩ :: legalTable.drop 2) = .error .entry1 := by decide

/-! ### Decoding: words written out bit by bit from the encodings of spec/opcode_table.json -/

theorem test_decode_dec36 : decode 0b00101010111100110111101111000000010010#38 = .dec36 0xABCDEF012#36 := by decide

theorem test_decode_dec32 : decode 0b01000000010010001101000101011001111000#38 = .dec32 0x012345678#36 := by decide

theorem test_decode_xlate : decode 0b10000000000000000000000000000100100011#38 = .xlate 0x000000123#36 := by decide

theorem test_decode_reservedOp3 : decode 0b11111111111111111111111111111111111111#38 = .reservedOp3 0xFFFFFFFFF#36 := by
  decide

theorem test_decodeNat_refuses : decodeNat (2 ^ 38) = .error .wordTooWide ∧
    decodeNat (2 ^ 38 - 1) = .ok (.reservedOp3 0xFFFFFFFFF#36) := by decide

theorem test_decodeTableWord : decodeTableWord 40 0x2000000123 = some (.xlate 0x123#36) ∧
    decodeTableWord 38 0x3FFFFFFFFF = some (.reservedOp3 0xFFFFFFFFF#36) ∧ decodeTableWord 40 (2 ^ 38) = none := by
  decide

theorem test_decodeBytes : decodeBytes .lsbFirst [0x23, 0x01, 0x00, 0x00, 0x20] = .ok (.xlate 0x123#36) ∧
    decodeBytes .msbFirst [0x20, 0x00, 0x00, 0x01, 0x23] = .ok (.xlate 0x123#36) ∧
    decodeBytes .msbFirst [0x40, 0x00, 0x00, 0x01, 0x23] = .error .wordTooWide ∧
    decodeBytes .lsbFirst [0x23] = .error .wrongLength := by decide

/-! ### The assembler (R36, R37; the request words are those of spec/95_test_vectors.md section 3) -/

theorem test_text_forms : assembleText "DEC36 0xABCDEF012     ; 0x0abcdef012" = .ok (some (.dec36 0xABCDEF012#36)) ∧
    assembleText "DEC32 4660" = .ok (some (.dec32 0x1234#36)) ∧
    assembleText "LOOKUP 255, 0xFFF" = .ok (some (.xlate 0xFFFFF#36)) ∧
    assembleText ".word 0x3000000123" = .ok (some (.reservedOp3 0x123#36)) ∧
    assembleText "; only a comment" = .ok none := by decide

theorem test_text_refused : assembleText "XLATE 0x1000000000" = .error .operandTooWide ∧
    assembleText "LOOKUP 256, 0" = .error .pageNumberTooWide ∧ assembleText "LOOKUP 0, 4096" = .error .offsetTooWide ∧
    assembleText ".word 0x2000000123" = .error .notReservedWord ∧ assembleText "XLATE 0x" = .error .literal ∧
    assembleText "LOOKUP 0 0" = .error .operandForm ∧ assembleText "NOP" = .error .unknownMnemonic := by decide

/-! ### One step: the vectors of spec/95_test_vectors.md section 2 -/

/-- Section 2.1: word, off, l3, l2, l1. -/
def dec36Rows : List (RequestWord × PageOffset × LevelIndex × LevelIndex × Level1Index) :=
  [ (0x0000000000, 0x000, 0x00, 0x00, 0x0), (0x0fffffffff, 0xFFF, 0xFF, 0xFF, 0xF),
    (0x00ffffffff, 0xFFF, 0xFF, 0xFF, 0xF), (0x0123456789, 0x789, 0x56, 0x34, 0x2),
    (0x0f00000000, 0x000, 0x00, 0x00, 0x0), (0x0010000000, 0x000, 0x00, 0x00, 0x1),
    (0x0000001000, 0x000, 0x01, 0x00, 0x0), (0x000ff00fff, 0xFFF, 0x00, 0xFF, 0x0),
    (0x0abcdef012, 0x012, 0xEF, 0xCD, 0xB) ]

theorem test_dec36_rows : dec36Rows.all (fun p => answerTo p.1 =
    some { status := .ok, off := p.2.1, l3 := p.2.2.1, l2 := p.2.2.2.1, l1 := p.2.2.2.2, pn := 0, pa := 0 }) = true := by
  decide

/-- Section 2.2: word, pn, off. -/
def dec32Rows : List (RequestWord × PageNumber × PageOffset) :=
  [ (0x1000000000, 0x00, 0x000), (0x10ffffffff, 0xFF, 0xFFF), (0x1012345678, 0x45, 0x678), (0x1000100000, 0x00, 0x000),
    (0x1000008000, 0x08, 0x000), (0x10000ff000, 0xFF, 0x000), (0x10fff00123, 0x00, 0x123), (0x1f00000123, 0x00, 0x123) ]

theorem test_dec32_rows : dec32Rows.all (fun p => answerTo p.1 =
    some { status := .ok, off := p.2.2, l3 := 0, l2 := 0, l1 := 0, pn := p.2.1, pa := 0 }) = true := by decide

/-- Section 2.3, the two open rows with the entries of `testRom`: word, pn, off, status, pa. -/
def xlateRows : List (RequestWord × PageNumber × PageOffset × Status × PhysicalAddress) :=
  [ (0x2000000123, 0x00, 0x123, .ok, 0x123), (0x2000000000, 0x00, 0x000, .ok, 0), (0x2000000fff, 0x00, 0xFFF, .ok, 0xFFF),
    (0x2000001000, 0x01, 0x000, .pageNotResident, 0), (0x2000001abc, 0x01, 0xABC, .pageNotResident, 0),
    (0x2000008000, 0x08, 0x000, .outOfRange, 0), (0x2000009123, 0x09, 0x123, .outOfRange, 0),
    (0x20000ff000, 0xFF, 0x000, .outOfRange, 0), (0x2000002345, 0x02, 0x345, .ok, 0xABCDE345),
    (0x2000007fff, 0x07, 0xFFF, .ok, 0xFFFFFFFF), (0x20fff00123, 0x00, 0x123, .ok, 0x123),
    (0x2000100fff, 0x00, 0xFFF, .ok, 0xFFF), (0x2f00000123, 0x00, 0x123, .ok, 0x123) ]

theorem test_xlate_rows : xlateRows.all (fun p => answerTo p.1 =
    some { status := p.2.2.2.1, off := p.2.2.1, l3 := 0, l2 := 0, l1 := 0, pn := p.2.1, pa := p.2.2.2.2 }) = true := by
  decide

/-- An open entry that is absent. -/
theorem test_xlate_absent_entry : answerTo 0x2000003123 =
    some { status := .pageNotResident, off := 0x123, l3 := 0, l2 := 0, l1 := 0, pn := 3, pa := 0 } := by decide

theorem test_reservedOp3_rows : [0x3000000000#38, 0x3000000123#38, 0x3fffffffff#38].all (fun w => answerTo w =
    some { status := .illegalOp, off := 0, l3 := 0, l2 := 0, l1 := 0, pn := 0, pa := 0 }) = true := by decide

/-- S1 as the first request after reset, whatever the open entries are. -/
theorem test_reset_first_request : ∃ t, step (State.reset.withFetchWord 40 0x2000000123) = .next t ∧
    t.out = { status := .ok, off := 0x123, l3 := 0, l2 := 0, l1 := 0, pn := 0, pa := 0x123 } := ⟨_, rfl, by decide⟩

/-- R19: the words of entries 0 and 1. -/
theorem test_romWord : romWord (romRead testRom 0) = 0x000003#22 ∧ romWord (romRead testRom 1) = 0x000020#22 := by decide

/-- R2: the parameters are the widths of the ports. -/
theorem test_parameters : Config.va36W = 36 ∧ Config.dec36UsedW = 32 ∧ Config.va32W = 32 ∧ Config.offW = 12 ∧
    Config.l3W = 8 ∧ Config.l2W = 8 ∧ Config.l1W = 4 ∧ Config.pnW = 8 ∧ Config.pageSize = 4096 ∧ Config.ptEntries = 8 ∧
    Config.frameW = 20 ∧ Config.paW = 32 := by decide

/-! ### Witnesses: the hypotheses of each obligation are met, at the edges of their ranges -/

/-- FieldIsMaskedShift: a bit inside the field, and one past the value. -/
theorem witness_field : (11 < 12) ∧ (36 ≤ 36 + 0) ∧ offSpec ∈ layout36 ++ layout32 := by decide

/-- OutOfRangeReadsNoEntry: page numbers 8 and 255, and a response that reports it. -/
theorem witness_out_of_range : 8 ≤ ((0x8000#36).toNat >>> 12) &&& 0xFF ∧ 8 ≤ ((0xFF000#36).toNat >>> 12) &&& 0xFF ∧
    InRange 7#8 ∧ ∃ t, exec (.xlate 0x8000#36) testState = .next t ∧ t.out.statusPort = 1 :=
  ⟨by decide, by decide, by decide, _, rfl, by decide⟩

/-- AbsentPageIsNotResident: page 1 on every ROM, page 3 on `testRom`. -/
theorem witness_absent : (romRead testState.rom ⟨((0x1FFF#36).toNat >>> 12) &&& 0xFF, by decide⟩).P = false ∧
    (romRead testState.rom ⟨((0x3000#36).toNat >>> 12) &&& 0xFF, by decide⟩).P = false ∧
    ∃ t, exec (.xlate 0x1FFF#36) testState = .next t ∧ t.out.statusPort = 2 :=
  ⟨by decide, by decide, _, rfl, by decide⟩

/-- XlateOutcome and PhysicalAddressIsFrameThenOffset: a present entry at the last index, with the largest frame. -/
theorem witness_present : (romRead testState.rom ⟨((0x7FFF#36).toNat >>> 12) &&& 0xFF, by decide⟩).P = true := by decide

/-- OneStatusByPriority, each clause. -/
theorem witness_status : (testState.drive 0x3000000123).op = 3 ∧
    ((testState.drive 0x2000008000).op = 2 ∧ 8 ≤ ((testState.drive 0x2000008000).va.toNat >>> 12) &&& 0xFF) ∧
    ((testState.drive 0x2000001000).op = 2 ∧ (romRead (testState.drive 0x2000001000).rom
      ⟨((testState.drive 0x2000001000).va.toNat >>> 12) &&& 0xFF, by decide⟩).P = false) ∧
    ((testState.drive 0x2000007fff).op = 2 ∧ (romRead (testState.drive 0x2000007fff).rom
      ⟨((testState.drive 0x2000007fff).va.toNat >>> 12) &&& 0xFF, by decide⟩).P = true) ∧
    (testState.drive 0x0000000000).op = 0 ∧ (testState.drive 0x1000000000).op = 1 := by decide

/-- EveryWordHasExactlyOneRow: a word for each value of `op`. -/
theorem witness_op_fields : opField 0x0fffffffff = 0 ∧ opField 0x1000000000 = 1 ∧ opField 0x2fffffffff = 2 ∧
    opField 0x3000000000 = 3 := by decide

/-- StepRunsTheRequestOnThePorts. -/
theorem witness_ports : decode (requestWord (testState.drive 0x2000002345).op (testState.drive 0x2000002345).va) =
    .xlate 0x2345#36 := by decide

/-- DrivenTableWordRunsNext: the largest word, at 38 and at 40 bits. -/
theorem witness_table_word : decodeTableWord 38 (2 ^ 38 - 1) = some (.reservedOp3 0xFFFFFFFFF#36) ∧
    decodeTableWord 40 0 = some (.dec36 0#36) := by decide

/-- StepChangesOnlyTheOutputs and StepMakesOutputsFollowInputs: a step whose outputs did not follow before it, and
PaQualified's own hypothesis after it. -/
theorem witness_step : ¬ OutputsFollowInputs (testState.drive 0x2000008000) ∧
    ∃ t, step (testState.drive 0x2000008000) = .next t ∧ t.out.status ≠ .ok :=
  ⟨by unfold OutputsFollowInputs; decide, _, rfl, by decide⟩

/-- ResetRomIsAsBuilt: the first and the last open index. -/
theorem witness_open_index : 2 ≤ (2 : Fin 8).val ∧ 2 ≤ (7 : Fin 8).val := by decide

/-- UndrivenOutputsReadZero: a request of each kind, and one with each value of the `pa` clause's condition. -/
theorem witness_undriven : (testState.drive 0x1000000000).op ≠ 0 ∧ (testState.drive 0x0000000000).op = 0 ∧
    (testState.drive 0x3000000000).op = 3 ∧
    ((testState.drive 0x2000001000).op = 2 ∧ ∃ t, step (testState.drive 0x2000001000) = .next t ∧ t.out.status ≠ .ok) :=
  ⟨by decide, by decide, by decide, by decide, _, rfl, by decide⟩

/-- SameLowBitsTranslateAlike: operands that differ in every ignored bit, states that differ in their outputs. -/
theorem witness_same_low_bits : (0x000002345#36).extractLsb' 0 20 = (0xFFFF02345#36).extractLsb' 0 20 ∧
    testState.rom = (testState.drive 0x3000000000).rom := by decide

/-- OnlyTheSelectedEntryMatters: two ROMs that differ in an M bit and in another entry. -/
theorem witness_selected_entry :
    (romRead testRom ⟨((0x2345#36).toNat >>> 12) &&& 0xFF, by decide⟩).P =
      (romRead { testRom with e2 := ⟨true, true, 0xABCDE⟩, e3 := ⟨true, true, 5⟩ }
        ⟨((0x2345#36).toNat >>> 12) &&& 0xFF, by decide⟩).P ∧
    (romRead testRom ⟨((0x2345#36).toNat >>> 12) &&& 0xFF, by decide⟩).frame =
      (romRead { testRom with e2 := ⟨true, true, 0xABCDE⟩, e3 := ⟨true, true, 5⟩ }
        ⟨((0x2345#36).toNat >>> 12) &&& 0xFF, by decide⟩).frame := by decide

/-- BuildAcceptsExactlyLegalTables. -/
theorem witness_build : buildRom legalTable = .ok testRom ∧ rawTableWf legalTable = true := by decide

/-- AssemblerWritesOpAndOperand: the largest operand, the smallest refused one, the first and last reserved word. -/
theorem witness_assembler : (2 ^ 36 - 1 < 2 ^ 36 ∧ 2 ^ 36 ≤ 2 ^ 36) ∧
    assemble (.word 0x3000000000) = .ok (.reservedOp3 0#36) ∧
    assemble (.word 0x3FFFFFFFFF) = .ok (.reservedOp3 0xFFFFFFFFF#36) := by decide

/-- AssemblerWritesOpAndOperand: the words next to the reserved range on both sides, and the two a looser assembler
would take (an XLATE word, a small number). -/
theorem witness_word_refused : (0x2FFFFFFFFF < 0x3000000000 ∧ assemble (.word 0x2FFFFFFFFF) = .error .notReservedWord) ∧
    (0x3FFFFFFFFF < 0x4000000000 ∧ assemble (.word 0x4000000000) = .error .notReservedWord) ∧
    assemble (.word 0x2000000123) = .error .notReservedWord ∧ assemble (.word 5) = .error .notReservedWord := by decide

/-- LookupExpandsToXlate: the largest legal operands and the smallest refused ones. -/
theorem witness_lookup : assemble (.lookup 255 4095) = .ok (.xlate 0xFFFFF#36) ∧
    assemble (.lookup 256 0) = .error .pageNumberTooWide ∧ assemble (.lookup 0 4096) = .error .offsetTooWide := by decide

/-- PageNumberMap: each clause at the edge of its range. -/
theorem witness_page_numbers : ((0xFFF#36).toNat >>> 12) &&& 0xFF = 0 ∧ ((0x1000#36).toNat >>> 12) &&& 0xFF = 1 ∧
    ((0x2000#36).toNat >>> 12) &&& 0xFF = 2 ∧ ((0x7FFF#36).toNat >>> 12) &&& 0xFF = 7 ∧
    ((0x8000#36).toNat >>> 12) &&& 0xFF = 8 ∧ ((0xFFFFF#36).toNat >>> 12) &&& 0xFF = 255 := by decide

/-- SamplingWaitsForSettle: too early, and just in time. -/
theorem witness_sampling : sampleAfter 2 1 (testState.drive 0x2000000123) = none ∧
    (sampleAfter 2 2 (testState.drive 0x2000000123)).isSome = true := by decide

end Sys2Proof.Tests
end

section
/-! The outputs a request leaves undriven (spec/10_state.md R11): first for the response to a request, by the request's
`op` code; then for the step, whose request has the code on the `op` port. -/

namespace Sys2Proof

/-- Decoding keeps the `op` code of the word (R31). -/
@[simp] theorem decode_opCode (w : RequestWord) : (decode w).opCode = opField w := by
  unfold decode
  split
  next h => exact h.symm
  split
  next h => exact h.symm
  split
  next h => exact h.symm
  next h0 h1 h2 =>
    have last_code : ∀ op : OpCode, op ≠ 0 → op ≠ 1 → op ≠ 2 → 3 = op := by decide
    exact last_code _ h0 h1 h2

namespace Machine

/-- The request on the ports has the code on the `op` port (R30). -/
theorem decode_portWord_opCode (s : State) : (decode s.portWord).opCode = s.op := by
  rw [decode_opCode]
  exact opField_requestWord s.op s.va

/-- The shape all three outcomes of XLATE share (R47): they differ in `status` and `pa` only, and `pa` is driven in the
outcome OK only. -/
theorem xlateResponse_shape (rom : Rom) (va : VirtualAddress) : ∃ st pa,
    xlateResponse rom va = { status := st, off := offOf va, l3 := 0, l2 := 0, l1 := 0, pn := pnOf va, pa := pa } ∧
      (st ≠ .ok → pa = 0) := by
  by_cases h : InRange (pnOf va)
  · cases hp : (romRead rom ⟨(pnOf va).toNat, h⟩).P
    case false => exact ⟨_, _, xlateResponse_absent rom va h hp, fun _ => rfl⟩
    case true => exact ⟨_, _, xlateResponse_present rom va h hp, fun hne => absurd rfl hne⟩
  · exact ⟨_, _, xlateResponse_outOfRange rom va h, fun _ => rfl⟩

section Respond

variable (rom : Rom) (i : Instr)

/-- Only DEC36 drives the level indices. -/
theorem respond_levels_zero (h : i.opCode ≠ 0) :
    (respond rom i).l1 = 0 ∧ (respond rom i).l2 = 0 ∧ (respond rom i).l3 = 0 := by
  cases i with
  | dec36 va => exact absurd rfl h
  | dec32 va => exact ⟨rfl, rfl, rfl⟩
  | xlate va =>
    obtain ⟨st, pa, hr, -⟩ := xlateResponse_shape rom va
    simp [respond, hr]
  | reservedOp3 va => exact ⟨rfl, rfl, rfl⟩

/-- DEC36 and the reserved operation leave `pn` undriven. -/
theorem respond_pn_zero (h : i.opCode = 0 ∨ i.opCode = 3) : (respond rom i).pn = 0 := by
  cases i with
  | dec36 va => rfl
  | dec32 va => simp [Instr.opCode] at h
  | xlate va => simp [Instr.opCode] at h
  | reservedOp3 va => rfl

/-- The reserved operation leaves `off` undriven. -/
theorem respond_off_zero (h : i.opCode = 3) : (respond rom i).off = 0 := by
  cases i with
  | dec36 va => simp [Instr.opCode] at h
  | dec32 va => simp [Instr.opCode] at h
  | xlate va => simp [Instr.opCode] at h
  | reservedOp3 va => rfl

/-- Only XLATE with status OK drives `pa`. -/
theorem respond_pa_zero (h : i.opCode ≠ 2 ∨ (respond rom i).status ≠ .ok) : (respond rom i).pa = 0 := by
  cases i with
  | dec36 va => rfl
  | dec32 va => rfl
  | xlate va =>
    obtain ⟨st, pa, hr, hpa⟩ := xlateResponse_shape rom va
    have hst : st ≠ .ok := by simpa [Instr.opCode, respond, hr] using h
    simp [respond, hr, hpa hst]
  | reservedOp3 va => rfl

end Respond

/-- Settles O26: the step answers with the response to the request on the ports, whose code is `op`, and each clause is
the lemma on that response. -/
theorem undrivenOutputsReadZero : Obligations.UndrivenOutputsReadZero := by
  intro s
  refine ⟨_, step_eq s, ?_⟩
  rw [← decode_portWord_opCode s]
  exact ⟨respond_levels_zero s.rom _, respond_pn_zero s.rom _, respond_off_zero s.rom _, respond_pa_zero s.rom _⟩

end Machine

end Sys2Proof
end

section
/-! The order of responses (spec/20_memory.md R27): what the head of a session is answered, as a function of the request
itself; then the whole session, by induction over its requests. -/

namespace Sys2Proof.Machine

/-- The step after the host drives `w` answers `w`, not merely what stands on the ports. -/
theorem serve_cons_eq (w : RequestWord) (ws : List RequestWord) (s : State) :
    serve (w :: ws) s =
      (serve ws { s.drive w with out := respond s.rom (decode w) }).map
        (fun p => (respond s.rom (decode w) :: p.1, p.2)) := by
  rw [serve_cons, portWord_drive s w (requestWord_fields w)]

/-- Settles O27, by induction on the requests: the head is answered first, and the rest is served from a state with the
same ROM. -/
theorem responsesInRequestOrder : Obligations.ResponsesInRequestOrder := by
  intro ws
  induction ws with
  | nil => exact fun s => ⟨s, rfl, rfl⟩
  | cons w ws ih =>
    intro s
    obtain ⟨e, hserve, hrom⟩ := ih { s.drive w with out := respond s.rom (decode w) }
    refine ⟨e, ?_, hrom⟩
    rw [serve_cons_eq, hserve]
    rfl

end Sys2Proof.Machine
end

section
/-! The request word and the rows of the opcode table (spec/30_encoding.md R30, R31). Every row has the same mask, which
keeps the `op` field of a word, so a row covers exactly the words that have its code. -/

namespace Sys2Proof

/-- Settles O16: the number and the two fields are those of `requestWord` on the request's code and operand. -/
theorem requestWordIsOpThenOperand : Obligations.RequestWordIsOpThenOperand :=
  ⟨by decide, fun i => ⟨requestWord_toNat i.opCode i.va, opField_requestWord i.opCode i.va,
    vaField_requestWord i.opCode i.va⟩⟩

/-- The decoder reads back the request an encoded word was made from. -/
theorem decode_encode (i : Instr) : decode (encode i) = i := by
  cases i <;> simp [decode, encode, Instr.opCode, Instr.va]

/-- A word decodes to the request that has its two fields. -/
theorem decode_of_fields {w : RequestWord} {i : Instr} (hop : opField w = i.opCode) (hva : vaField w = i.va) :
    decode w = i := by
  have hw : encode i = w := by rw [encode, ← hop, ← hva, requestWord_fields]
  rw [← hw, decode_encode]

/-- The mask of the opcode table keeps the `op` field and clears the operand. -/
theorem and_opMask (w : RequestWord) : w &&& 0x3000000000#38 = requestWord (opField w) 0 := by
  have keep_both : ∀ op : OpCode, op &&& 3#2 = op := by decide
  have hmask : 0x3000000000#38 = requestWord 3#2 0#36 := by decide
  calc w &&& 0x3000000000#38
      = requestWord (opField w) (vaField w) &&& requestWord 3#2 0#36 := by rw [requestWord_fields, hmask]
    _ = requestWord (opField w &&& 3#2) (vaField w &&& 0#36) := BitVec.and_append
    _ = requestWord (opField w) 0 := by rw [keep_both, BitVec.and_zero]; rfl

/-- The mnemonic is a name of the code. -/
theorem mnemonic_eq_iff_opCode_eq (i j : Instr) : i.mnemonic = j.mnemonic ↔ i.opCode = j.opCode := by
  cases i <;> cases j <;> simp [Instr.mnemonic, Instr.opCode]

/-- The row of the opcode table a request belongs to. -/
def Instr.row (i : Instr) : OpcodeRow := ⟨i.mnemonic, 0x3000000000#38, requestWord i.opCode 0⟩

/-- The table holds the rows of the requests and no other. -/
theorem mem_opcodeRows_iff (r : OpcodeRow) : r ∈ opcodeRows ↔ ∃ i : Instr, r = i.row := by
  have htable : opcodeRows =
      [(Instr.dec36 0).row, (Instr.dec32 0).row, (Instr.xlate 0).row, (Instr.reservedOp3 0).row] := by decide
  rw [htable]
  constructor
  · intro hr
    simp only [List.mem_cons, List.not_mem_nil, or_false] at hr
    obtain h | h | h | h := hr <;> exact ⟨_, h⟩
  · rintro ⟨i, rfl⟩
    cases i <;> simp [Instr.row, Instr.mnemonic, Instr.opCode]

theorem row_covers_iff (i : Instr) (w : RequestWord) : i.row.covers w = true ↔ i.opCode = opField w := by
  rw [OpcodeRow.covers, decide_eq_true_iff, Instr.row, and_opMask]
  constructor
  · intro h
    simpa using (congrArg opField h).symm
  · intro h
    rw [h]

theorem row_eq_of_opCode_eq {i j : Instr} (h : i.opCode = j.opCode) : i.row = j.row := by
  rw [Instr.row, Instr.row, (mnemonic_eq_iff_opCode_eq i j).mpr h, h]

/-- Settles O14: the one row that covers a word is the row of its request, because a row covers the words with its code
and decoding keeps the code. -/
theorem everyWordHasExactlyOneRow : Obligations.EveryWordHasExactlyOneRow := by
  refine ⟨rfl, fun w => ⟨⟨(decode w).row, ⟨?_, ?_⟩, ?_⟩, ?_, ?_, ?_, ?_, ?_⟩⟩
  · exact (mem_opcodeRows_iff _).mpr ⟨decode w, rfl⟩
  · exact (row_covers_iff _ w).mpr (decode_opCode w)
  · rintro r ⟨hr, hcov⟩
    obtain ⟨i, rfl⟩ := (mem_opcodeRows_iff r).mp hr
    exact row_eq_of_opCode_eq (((row_covers_iff i w).mp hcov).trans (decode_opCode w).symm)
  · intro r hr
    obtain ⟨i, rfl⟩ := (mem_opcodeRows_iff r).mp hr
    rw [row_covers_iff, ← decode_opCode w, ← mnemonic_eq_iff_opCode_eq]
    exact eq_comm
  · exact fun h => decode_of_fields h rfl
  · exact fun h => decode_of_fields h rfl
  · exact fun h => decode_of_fields h rfl
  · exact fun h => decode_of_fields h rfl

end Sys2Proof
end

section
/-! The ignored bits of an operand (spec/30_encoding.md R32, R35). A response reads its operand through fields only, and
a field is not changed by a mask that is all ones there. -/

namespace Sys2Proof.Machine

/-- A mask that is all ones on a field keeps the field. -/
theorem get_and_mask (f : FieldSpec) (va mask : VirtualAddress) (hmask : f.get mask = BitVec.allOnes f.width) :
    f.get (va &&& mask) = f.get va :=
  calc f.get (va &&& mask) = f.get va &&& f.get mask := BitVec.extractLsb'_and
    _ = f.get va := by rw [hmask, BitVec.and_allOnes]

theorem offOf_and_low20 (va : VirtualAddress) : offOf (va &&& 0x0000FFFFF#36) = offOf va :=
  get_and_mask offSpec va _ (by decide)

theorem pnOf_and_low20 (va : VirtualAddress) : pnOf (va &&& 0x0000FFFFF#36) = pnOf va :=
  get_and_mask pnSpec va _ (by decide)

/-- The request with the bits of R32's column "bits ignored" cleared. -/
def clearIgnored (i : Instr) : Instr :=
  match i with
  | .dec36 va => .dec36 (va &&& 0x0FFFFFFFF#36)
  | .dec32 va => .dec32 (va &&& 0x0000FFFFF#36)
  | .xlate va => .xlate (va &&& 0x0000FFFFF#36)
  | .reservedOp3 _ => .reservedOp3 0#36

/-- The response to a request does not depend on its ignored bits (R35). -/
theorem respond_clearIgnored (rom : Rom) (i : Instr) : respond rom (clearIgnored i) = respond rom i := by
  cases i with
  | dec36 va =>
    have hoff : offOf (va &&& 0x0FFFFFFFF#36) = offOf va := get_and_mask offSpec va _ (by decide)
    have hl3 : l3Of (va &&& 0x0FFFFFFFF#36) = l3Of va := get_and_mask l3Spec va _ (by decide)
    have hl2 : l2Of (va &&& 0x0FFFFFFFF#36) = l2Of va := get_and_mask l2Spec va _ (by decide)
    have hl1 : l1Of (va &&& 0x0FFFFFFFF#36) = l1Of va := get_and_mask l1Spec va _ (by decide)
    simp only [clearIgnored, respond, dec36Response, hoff, hl3, hl2, hl1]
  | dec32 va =>
    simp only [clearIgnored, respond, dec32Response, offOf_and_low20, pnOf_and_low20]
  | xlate va =>
    simp only [clearIgnored, respond, xlateResponse, offOf_and_low20, pnOf_and_low20]
  | reservedOp3 va => rfl

/-- A request and the same request with its ignored bits cleared complete in one and the same state. -/
theorem exec_clearIgnored (i : Instr) (s : State) :
    ∃ t, exec i s = .next t ∧ exec (clearIgnored i) s = .next t :=
  ⟨_, exec_eq i s, by rw [exec_eq, respond_clearIgnored]⟩

/-- Settles O18: each clause is the request of one operation with its ignored bits cleared. -/
theorem ignoredBitsChangeNothing : Obligations.IgnoredBitsChangeNothing := fun va s =>
  ⟨exec_clearIgnored (.dec36 va) s, exec_clearIgnored (.dec32 va) s, exec_clearIgnored (.xlate va) s,
    exec_clearIgnored (.reservedOp3 va) s⟩

end Sys2Proof.Machine
end

section
/-! The pseudo-instruction LOOKUP (spec/30_encoding.md R37): what it assembles to, and that XLATE takes the page number
and the offset out of the operand again. -/

namespace Sys2Proof.Machine

/-- XLATE drives `pn` and `off` in every outcome (R47). -/
theorem xlateResponse_pn_off (rom : Rom) (va : VirtualAddress) :
    (xlateResponse rom va).pn = pnOf va ∧ (xlateResponse rom va).off = offOf va := by
  obtain ⟨st, pa, hr, -⟩ := xlateResponse_shape rom va
  simp [hr]

theorem pnOf_toNat (va : VirtualAddress) : (pnOf va).toNat = va.toNat / 4096 % 256 := by
  rw [pnOf_eq, BitVec.extractLsb'_toNat, Nat.shiftRight_eq_div_pow]

theorem offOf_toNat (va : VirtualAddress) : (offOf va).toNat = va.toNat % 4096 := by
  rw [offOf_eq, BitVec.extractLsb'_toNat, Nat.shiftRight_zero]

/-- The operand of a LOOKUP as a number: an offset in range does not reach the page number's bits. -/
theorem lookupOperand_eq (pn : Nat) {off : Nat} (hoff : off < 4096) : lookupOperand pn off = pn * 4096 + off := by
  rw [lookupOperand, ← Nat.shiftLeft_add_eq_or_of_lt hoff, Nat.shiftLeft_eq]

theorem assembleOperand_ok {n : Nat} (h : n < 2 ^ 36) : assembleOperand n = .ok (BitVec.ofNat 36 n) :=
  if_pos (decide_eq_true h)

section Operand

variable {pn off : Nat} (hpn : pn < 256) (hoff : off < 4096)
include hpn hoff

/-- The operand of a legal LOOKUP fits the `va` port. -/
theorem lookupOperand_lt : lookupOperand pn off < 2 ^ 36 := by
  rw [lookupOperand_eq pn hoff]
  omega

theorem lookupOperand_toNat : (BitVec.ofNat 36 (lookupOperand pn off)).toNat = lookupOperand pn off :=
  (BitVec.toNat_ofNat _ _).trans (Nat.mod_eq_of_lt (lookupOperand_lt hpn hoff))

/-- A legal LOOKUP is an XLATE. -/
theorem assemble_lookup :
    assemble (.lookup pn off) = .ok (.xlate (BitVec.ofNat 36 (lookupOperand pn off))) := by
  simp [assemble, lookupPageOk, lookupOffsetOk, hpn, hoff, assembleOperand_ok (lookupOperand_lt hpn hoff), Except.map]

theorem pnOf_lookupOperand : (pnOf (BitVec.ofNat 36 (lookupOperand pn off))).toNat = pn := by
  rw [pnOf_toNat, lookupOperand_toNat hpn hoff, lookupOperand_eq pn hoff]
  omega

theorem offOf_lookupOperand : (offOf (BitVec.ofNat 36 (lookupOperand pn off))).toNat = off := by
  rw [offOf_toNat, lookupOperand_toNat hpn hoff, lookupOperand_eq pn hoff]
  omega

/-- XLATE of the operand drives the LOOKUP's page number and offset, whatever the ROM holds. -/
theorem exec_xlate_lookupOperand (s : State) :
    ∃ t, exec (.xlate (BitVec.ofNat 36 (lookupOperand pn off))) s = .next t ∧
      t.out.pn.toNat = pn ∧ t.out.off.toNat = off := by
  obtain ⟨hp, ho⟩ := xlateResponse_pn_off s.rom (BitVec.ofNat 36 (lookupOperand pn off))
  refine ⟨_, exec_eq _ s, ?_, ?_⟩
  · exact (congrArg BitVec.toNat hp).trans (pnOf_lookupOperand hpn hoff)
  · exact (congrArg BitVec.toNat ho).trans (offOf_lookupOperand hpn hoff)

end Operand

/-- A LOOKUP with a wider operand is refused. -/
theorem assemble_lookup_refused {pn off : Nat} (h : 256 ≤ pn ∨ 4096 ≤ off) :
    ∃ e, assemble (.lookup pn off) = .error e := by
  by_cases hpn : pn < 256
  · have hoff : ¬ off < 4096 := by omega
    exact ⟨.offsetTooWide, by simp [assemble, lookupPageOk, lookupOffsetOk, hpn, hoff]⟩
  · exact ⟨.pageNumberTooWide, by simp [assemble, lookupPageOk, hpn]⟩

/-- Settles O34: the operand is `pn * 4096 + off`, and XLATE drives its quotient and its remainder by 4096. -/
theorem lookupExpandsToXlate : Obligations.LookupExpandsToXlate :=
  ⟨fun _ _ hpn hoff => ⟨_, assemble_lookup hpn hoff, lookupOperand_toNat hpn hoff, exec_xlate_lookupOperand hpn hoff⟩,
    fun _ _ => assemble_lookup_refused,
    .xlate 0x123, rfl, rfl, by decide⟩

end Sys2Proof.Machine
end

section
/-! The field primitive (spec/40_address_decomposer.md R39): its value, its bits, and that a field put back on top of the
bits below it gives the low bits up to its own end. -/

namespace Sys2Proof

section Field

variable {n : Nat} (v : BitVec n) (start width : Nat)

theorem field_toNat : (field v start width).toNat = (v.toNat >>> start) &&& (2 ^ width - 1) := by
  rw [field_eq_extract, BitVec.extractLsb'_toNat, Nat.and_two_pow_sub_one_eq_mod]

theorem field_getLsbD {i : Nat} (hi : i < width) : (field v start width).getLsbD i = v.getLsbD (start + i) := by
  simp [field_eq_extract, hi]

theorem field_getLsbD_past {i : Nat} (hi : n ≤ start + i) : (field v start width).getLsbD i = false := by
  simp [field_eq_extract, BitVec.getLsbD_of_ge v _ hi]

/-- One step of reassembling (R41, R43): the field at `start` continues the `start` bits below it. -/
theorem lowBits_or_field : (v.toNat &&& (2 ^ start - 1)) ||| ((field v start width).toNat <<< start) =
    v.toNat &&& (2 ^ (start + width) - 1) := by
  have hlow : v.toNat % 2 ^ start < 2 ^ start := Nat.mod_lt _ (Nat.two_pow_pos start)
  simp only [field_toNat, Nat.and_two_pow_sub_one_eq_mod]
  rw [Nat.or_comm, ← Nat.shiftLeft_add_eq_or_of_lt hlow, Nat.shiftLeft_eq, Nat.shiftRight_eq_div_pow, Nat.pow_add,
    Nat.mod_mul, Nat.add_comm, Nat.mul_comm]

end Field

namespace Machine

/-- Settles O1: the value and the bits are those of `field` at any position; the last clause is about six fixed fields. -/
theorem fieldIsMaskedShift : Obligations.FieldIsMaskedShift :=
  ⟨fun _ start width v => ⟨field_toNat v start width, fun _ => field_getLsbD v start width,
    fun _ => field_getLsbD_past v start width⟩, by decide⟩

end Machine

end Sys2Proof
end

section
/-! The layouts (spec/40_address_decomposer.md R38). The fields of each stand end to end, and fields that do so hold every
bit between their two ends exactly once. -/

namespace Sys2Proof.Machine

/-- The fields stand end to end, the first at bit `lo`, the last ending below bit `hi`. -/
def EndToEnd (lo : Nat) (fs : List FieldSpec) (hi : Nat) : Prop :=
  match fs with
  | [] => lo = hi
  | f :: rest => f.start = lo ∧ EndToEnd (lo + f.width) rest hi

theorem layout36_endToEnd : EndToEnd 0 layout36 32 := ⟨rfl, rfl, rfl, rfl, rfl⟩

theorem layout32_endToEnd : EndToEnd 0 layout32 20 := ⟨rfl, rfl, rfl⟩

theorem EndToEnd.le {lo hi : Nat} {fs : List FieldSpec} (h : EndToEnd lo fs hi) : lo ≤ hi := by
  induction fs generalizing lo with
  | nil => exact Nat.le_of_eq h
  | cons f rest ih =>
    obtain ⟨-, hrest⟩ := h
    exact (Nat.le_add_right lo f.width).trans (ih hrest)

theorem holds_iff (f : FieldSpec) (b : Nat) : f.holds b = true ↔ f.start ≤ b ∧ b < f.start + f.width :=
  decide_eq_true_iff

/-- Every bit from `lo` to below `hi` is in exactly one of the fields, and no other bit is in any. -/
theorem EndToEnd.length_filter_holds {lo hi : Nat} {fs : List FieldSpec} (h : EndToEnd lo fs hi) (b : Nat) :
    (fs.filter (fun f => f.holds b)).length = if lo ≤ b ∧ b < hi then 1 else 0 := by
  induction fs generalizing lo with
  | nil =>
    have hempty : ¬ (lo ≤ b ∧ b < hi) := by
      have hends : lo = hi := h
      omega
    rw [if_neg hempty]
    rfl
  | cons f rest ih =>
    obtain ⟨rfl, hrest⟩ := h
    have hle := hrest.le
    by_cases hb : f.holds b = true
    · obtain ⟨hlo, hhi⟩ := (holds_iff f b).mp hb
      rw [List.filter_cons, if_pos hb, List.length_cons, ih hrest, if_neg (by omega), if_pos (by omega)]
    · rw [List.filter_cons, if_neg hb, ih hrest]
      rw [holds_iff] at hb
      exact if_congr (by omega) rfl rfl

/-- Settles O2: both layouts stand end to end from bit 0, and each operation drives its fields of the one operand. -/
theorem layoutsTileTheExaminedBits : Obligations.LayoutsTileTheExaminedBits := by
  refine ⟨rfl, rfl, fun b => ?_, fun b => ?_, fun va s => ?_, fun va s => ?_⟩
  · simpa using layout36_endToEnd.length_filter_holds b
  · simpa using layout32_endToEnd.length_filter_holds b
  · exact ⟨_, exec_eq (.dec36 va) s, rfl, rfl, rfl, rfl⟩
  · exact ⟨_, exec_eq (.dec32 va) s, rfl, rfl⟩

end Sys2Proof.Machine
end

section
/-! DEC36 and DEC32 (spec/40_address_decomposer.md R40 to R43): the fields of the two layouts as masked shifts of the
operand, what they reassemble to, and the two operations. -/

namespace Sys2Proof.Machine

section MaskedShifts

variable (va : VirtualAddress)

theorem offOf_toNat_and : (offOf va).toNat = va.toNat &&& 0xFFF := field_toNat va 0 12
theorem l3Of_toNat_and : (l3Of va).toNat = (va.toNat >>> 12) &&& 0xFF := field_toNat va 12 8
theorem l2Of_toNat_and : (l2Of va).toNat = (va.toNat >>> 20) &&& 0xFF := field_toNat va 20 8
theorem l1Of_toNat_and : (l1Of va).toNat = (va.toNat >>> 28) &&& 0xF := field_toNat va 28 4
theorem pnOf_toNat_and : (pnOf va).toNat = (va.toNat >>> 12) &&& 0xFF := field_toNat va 12 8

/-- The 32-bit layout gives back the low 20 bits of the operand (R43). -/
theorem layout32_reassembles : (offOf va).toNat ||| ((pnOf va).toNat <<< 12) = va.toNat &&& 0xFFFFF := by
  rw [offOf_toNat_and]
  exact lowBits_or_field va 12 8

/-- The 36-bit layout gives back the low 32 bits of the operand (R41). -/
theorem layout36_reassembles :
    (offOf va).toNat ||| ((l3Of va).toNat <<< 12) ||| ((l2Of va).toNat <<< 20) ||| ((l1Of va).toNat <<< 28) =
      va.toNat &&& 0xFFFFFFFF :=
  calc (offOf va).toNat ||| ((l3Of va).toNat <<< 12) ||| ((l2Of va).toNat <<< 20) ||| ((l1Of va).toNat <<< 28)
      = (va.toNat &&& (2 ^ 12 - 1)) ||| ((field va 12 8).toNat <<< 12) ||| ((field va 20 8).toNat <<< 20) |||
          ((field va 28 4).toNat <<< 28) := by rw [offOf_toNat_and]; rfl
    _ = (va.toNat &&& (2 ^ 20 - 1)) ||| ((field va 20 8).toNat <<< 20) ||| ((field va 28 4).toNat <<< 28) := by
        rw [lowBits_or_field va 12 8]
    _ = (va.toNat &&& (2 ^ 28 - 1)) ||| ((field va 28 4).toNat <<< 28) := by rw [lowBits_or_field va 20 8]
    _ = va.toNat &&& 0xFFFFFFFF := lowBits_or_field va 28 4

end MaskedShifts

/-- Settles O4: the bounds are those of the output ports' widths, and the fields reassemble step by step. -/
theorem dec36Reassembles : Obligations.Dec36Reassembles := fun va s =>
  ⟨_, exec_eq (.dec36 va) s, Nat.le_of_lt_succ (offOf va).isLt, Nat.le_of_lt_succ (l3Of va).isLt,
    Nat.le_of_lt_succ (l2Of va).isLt, Nat.le_of_lt_succ (l1Of va).isLt, layout36_reassembles va⟩

/-- Settles O6, as O4 and with the values of the two fields. -/
theorem dec32Reassembles : Obligations.Dec32Reassembles := fun va s =>
  ⟨_, exec_eq (.dec32 va) s, Nat.le_of_lt_succ (pnOf va).isLt, Nat.le_of_lt_succ (offOf va).isLt,
    pnOf_toNat_and va, offOf_toNat_and va, layout32_reassembles va⟩

/-- Settles O3: the one response is `dec36Response va`, in which no state occurs. -/
theorem dec36DrivesItsFields : Obligations.Dec36DrivesItsFields := fun va =>
  ⟨rfl, dec36Response va, offOf_toNat_and va, l3Of_toNat_and va, l2Of_toNat_and va, l1Of_toNat_and va, rfl, rfl, rfl,
    exec_eq (.dec36 va)⟩

/-- Settles O5: the one response is `dec32Response va`, in which no state occurs. -/
theorem dec32DrivesItsFields : Obligations.Dec32DrivesItsFields := fun va =>
  ⟨rfl, dec32Response va, pnOf_toNat_and va, offOf_toNat_and va, rfl, rfl, rfl, rfl, rfl, exec_eq (.dec32 va)⟩

end Sys2Proof.Machine
end

section
/-! XLATE (spec/41_page_table_lookup.md R44 to R48). The obligations write the page number and the offset as masked
shifts of the operand; the proofs first put `pnOf` and `offOf` there, and each clause is then one of XLATE's three
outcomes. -/

namespace Sys2Proof.Machine

section Outcome

variable (rom : Rom) (va : VirtualAddress)

/-- XLATE says OUT_OF_RANGE for no other cause than the page number (R50). -/
theorem xlateResponse_status_outOfRange_iff : (xlateResponse rom va).statusPort = 1 ↔ 8 ≤ (pnOf va).toNat := by
  by_cases h : InRange (pnOf va)
  · cases hp : (romRead rom ⟨(pnOf va).toNat, h⟩).P
    case false => simpa [xlateResponse_absent rom va h hp, Response.statusPort, Status.code] using h
    case true => simpa [xlateResponse_present rom va h hp, Response.statusPort, Status.code] using h
  · simpa [xlateResponse_outOfRange rom va h, Response.statusPort, Status.code] using h

/-- XLATE says PAGE_NOT_RESIDENT for no other cause than a selected entry that is not present (R51). -/
theorem xlateResponse_status_pageNotResident_iff : (xlateResponse rom va).statusPort = 2 ↔
    ∃ h : InRange (pnOf va), (romRead rom ⟨(pnOf va).toNat, h⟩).P = false := by
  by_cases h : InRange (pnOf va)
  · cases hp : (romRead rom ⟨(pnOf va).toNat, h⟩).P
    case false => simp [xlateResponse_absent rom va h hp, Response.statusPort, Status.code, h, hp]
    case true => simp [xlateResponse_present rom va h hp, Response.statusPort, Status.code, hp]
  · simp [xlateResponse_outOfRange rom va h, Response.statusPort, Status.code, h]

end Outcome

/-- In hardware terms the range check is that the high five bits of the page number are 0 (R44). -/
theorem inRange_iff_high_bits_zero (pn : PageNumber) : InRange pn ↔ pn.extractLsb' 3 5 = 0 := by
  have hpn := pn.isLt
  rw [← BitVec.toNat_inj, BitVec.extractLsb'_toNat, Nat.shiftRight_eq_div_pow]
  show pn.toNat < 8 ↔ pn.toNat / 2 ^ 3 % 2 ^ 5 = 0
  omega

/-- The index of an in-range page is the low three bits of its number (R44). -/
theorem index_toNat_of_inRange {pn : PageNumber} (h : InRange pn) : (pn.extractLsb' 0 3).toNat = pn.toNat := by
  rw [BitVec.extractLsb'_toNat, Nat.shiftRight_zero]
  exact Nat.mod_eq_of_lt h

/-- The sum of R46 is a concatenation: the offset does not reach the bits of the frame. -/
theorem physicalAddress_eq_append (frame : FrameNumber) (off : PageOffset) :
    physicalAddress frame off = frame ++ off := by
  apply BitVec.eq_of_toNat_eq
  rw [physicalAddress_toNat, BitVec.toNat_append, ← Nat.shiftLeft_add_eq_or_of_lt off.isLt, Nat.shiftLeft_eq]

/-- The bits XLATE examines, as a word of the port's width. -/
theorem and_low20_eq_setWidth (va : VirtualAddress) : va &&& 0x0000FFFFF#36 = (va.extractLsb' 0 20).setWidth 36 := by
  apply BitVec.eq_of_toNat_eq
  have hmask : va.toNat &&& 0xFFFFF = va.toNat % 2 ^ 20 := Nat.and_two_pow_sub_one_eq_mod va.toNat 20
  rw [BitVec.toNat_and, BitVec.toNat_setWidth_of_le (by decide), BitVec.extractLsb'_toNat]
  exact hmask

/-- XLATE's response is a function of the ROM and `va[19:0]` (R48). -/
theorem xlateResponse_congr_low20 (rom : Rom) {va va' : VirtualAddress}
    (h : va.extractLsb' 0 20 = va'.extractLsb' 0 20) : xlateResponse rom va = xlateResponse rom va' :=
  calc xlateResponse rom va = xlateResponse rom (va &&& 0x0000FFFFF#36) := (respond_clearIgnored rom (.xlate va)).symm
    _ = xlateResponse rom (va' &&& 0x0000FFFFF#36) := by rw [and_low20_eq_setWidth, h, ← and_low20_eq_setWidth]
    _ = xlateResponse rom va' := respond_clearIgnored rom (.xlate va')

/-- Settles O7: the fields are those all outcomes share, and each of the last three clauses is one outcome. -/
theorem xlateOutcome : Obligations.XlateOutcome := by
  intro va s
  rw [← pnOf_toNat_and va, ← offOf_toNat_and va]
  obtain ⟨hpn, hoff⟩ := xlateResponse_pn_off s.rom va
  obtain ⟨hl1, hl2, hl3⟩ := respond_levels_zero s.rom (.xlate va) (by decide : (2#2 : OpCode) ≠ 0)
  refine ⟨rfl, xlateResponse s.rom va, exec_eq (.xlate va) s, congrArg _ hpn, congrArg _ hoff, hl1, hl2, hl3,
    fun h => ?_, fun h => ⟨fun hp => ?_, fun hp => ?_⟩⟩
  · rw [xlateResponse_outOfRange s.rom va (Nat.not_lt.mpr h)]
    exact ⟨rfl, rfl⟩
  · rw [xlateResponse_absent s.rom va h hp]
    exact ⟨rfl, rfl⟩
  · rw [xlateResponse_present s.rom va h hp]
    exact ⟨rfl, physicalAddress_toNat _ _⟩

/-- Settles O8: the one response is that of `xlateResponse_outOfRange`, in which no ROM occurs. -/
theorem outOfRangeReadsNoEntry : Obligations.OutOfRangeReadsNoEntry := by
  refine ⟨fun va => ?_, fun va s t => ?_, inRange_iff_high_bits_zero, fun _ => index_toNat_of_inRange⟩
  · rw [← pnOf_toNat_and va, ← offOf_toNat_and va]
    intro h
    refine ⟨raise (dec32Response va) .outOfRange, rfl, rfl, rfl, rfl, fun s => ?_⟩
    rw [exec_eq, respond, xlateResponse_outOfRange s.rom va (Nat.not_lt.mpr h)]
    rfl
  · rw [← pnOf_toNat_and va]
    rintro ⟨⟩
    exact (xlateResponse_status_outOfRange_iff s.rom va).mp

/-- Settles O9: the one response is that of `xlateResponse_absent`, in which neither frame nor M occurs. -/
theorem absentPageIsNotResident : Obligations.AbsentPageIsNotResident := by
  refine ⟨fun va => ?_, fun va s t => ?_, fun _ => rfl⟩
  · rw [← pnOf_toNat_and va, ← offOf_toNat_and va]
    intro h
    refine ⟨raise (dec32Response va) .pageNotResident, rfl, rfl, rfl, rfl, fun s hp => ?_⟩
    rw [exec_eq, respond, xlateResponse_absent s.rom va h hp]
    rfl
  · rw [← pnOf_toNat_and va]
    rintro ⟨⟩
    exact (xlateResponse_status_pageNotResident_iff s.rom va).mp

/-- Settles O10: the response is that of `xlateResponse_present`, and the sum is the number of a 32-bit port. -/
theorem physicalAddressIsFrameThenOffset : Obligations.PhysicalAddressIsFrameThenOffset := by
  intro va s
  rw [← pnOf_toNat_and va]
  intro h hp
  refine ⟨_, exec_eq (.xlate va) s, ?_⟩
  rw [respond, xlateResponse_present s.rom va h hp]
  refine ⟨physicalAddress_toNat _ _, physicalAddress_eq_append _ _, ?_⟩
  rw [← physicalAddress_toNat]
  exact Nat.le_of_lt_succ (BitVec.isLt _)

/-- Settles O29: both responses are functions of the one ROM and the one `va[19:0]`. -/
theorem sameLowBitsTranslateAlike : Obligations.SameLowBitsTranslateAlike := by
  intro va va' s s' hrom hlow
  refine ⟨xlateResponse s.rom va, exec_eq (.xlate va) s, ?_⟩
  rw [hrom, xlateResponse_congr_low20 s'.rom hlow]
  exact exec_eq (.xlate va') s'

end Sys2Proof.Machine
end

section
/-! The statuses (spec/60_exceptions.md R52, R53, R55): the reserved operation, the status of each request on the ports,
and that nothing of an earlier request but the unchanged ROM reaches a later one. -/

namespace Sys2Proof.Machine

/-- Settles O11: the one response is `reservedOp3Response`, in which neither the operand nor a state occurs. -/
theorem reservedOpAnswersIllegalOp : Obligations.ReservedOpAnswersIllegalOp :=
  ⟨reservedOp3Response, rfl, rfl, rfl, rfl, rfl, rfl, rfl, fun va => ⟨rfl, exec_eq (.reservedOp3 va)⟩⟩

/-- The request on the ports is the one with the code on `op` and the operand on `va` (R30). -/
theorem decode_portWord_eq {s : State} {i : Instr} (hop : s.op = i.opCode) (hva : s.va = i.va) :
    decode s.portWord = i :=
  decode_of_fields ((opField_requestWord s.op s.va).trans hop) ((vaField_requestWord s.op s.va).trans hva)

/-- Settles O12: the value of `op` names the request on the ports; for XLATE each clause is one of its three outcomes. -/
theorem oneStatusByPriority : Obligations.OneStatusByPriority := by
  intro s
  rw [← pnOf_toNat_and s.va]
  have hxlate (hop : s.op = 2) : decode s.portWord = .xlate s.va := decode_portWord_eq hop rfl
  refine ⟨_, step_eq s, fun hop => ?_, fun hop h => ?_, fun hop h hp => ?_, fun hop h hp => ?_, fun hop => ?_⟩
  · rw [decode_portWord_eq (i := .reservedOp3 s.va) hop rfl]
    rfl
  · rw [hxlate hop]
    exact (xlateResponse_status_outOfRange_iff s.rom s.va).mpr h
  · rw [hxlate hop]
    exact (xlateResponse_status_pageNotResident_iff s.rom s.va).mpr ⟨h, hp⟩
  · rw [hxlate hop, respond, xlateResponse_present s.rom s.va h hp]
    rfl
  · obtain hop | hop := hop
    · rw [decode_portWord_eq (i := .dec36 s.va) hop rfl]
      rfl
    · rw [decode_portWord_eq (i := .dec32 s.va) hop rfl]
      rfl

/-- Of the state it starts in, a session with a request in it reads the ROM only: the host drives the ports anew, and the
step writes the outputs anew. -/
theorem serve_cons_congr_rom (w : RequestWord) (ws : List RequestWord) {s s' : State} (h : s.rom = s'.rom) :
    serve (w :: ws) s = serve (w :: ws) s' := by
  rw [serve_cons_eq, serve_cons_eq, State.drive, State.drive, h]

/-- Settles O28, by induction on the earlier requests: the first of them leaves a state with the same ROM, in which the
last request is served as in the state before. -/
theorem noRequestDependsOnHistory : Obligations.NoRequestDependsOnHistory := by
  intro earlier w
  induction earlier with
  | nil =>
    intro s
    exact ⟨[], respond s.rom (decode w), _, serve_cons_eq w [] s, serve_cons_eq w [] s⟩
  | cons w' earlier ih =>
    intro s
    obtain ⟨rs, r, e, hall, hlast⟩ := ih { s.drive w' with out := respond s.rom (decode w') }
    refine ⟨respond s.rom (decode w') :: rs, r, e, ?_, ?_⟩
    · rw [List.cons_append, serve_cons_eq, hall]
      rfl
    · rw [← hlast]
      exact serve_cons_congr_rom w [] rfl

end Sys2Proof.Machine
end

section
/-! The round trip between requests and words (spec/30_encoding.md R30, R31), and the two framings built on it: a table
word driven on the ports, and the five bytes of a host's channel. -/

namespace Sys2Proof

/-- Decoding keeps the operand of the word (R30). -/
@[simp] theorem decode_va (w : RequestWord) : (decode w).va = vaField w := by
  unfold decode
  split_ifs <;> rfl

/-- A word is the word of the request it decodes to: no bit of it is dropped. -/
theorem encode_decode (w : RequestWord) : encode (decode w) = w := by
  rw [encode, decode_opCode, decode_va, requestWord_fields]

/-- Settles O15: one direction is `decode_encode`, the other `encode_decode`. -/
theorem decodeAndEncodeAreInverse : Obligations.DecodeAndEncodeAreInverse :=
  ⟨fun i => ⟨instr_wellFormed i, decode_encode i⟩, encode_decode⟩

/-- Settles O17: each of the four words is the encoding of the request it is listed for. -/
theorem specWordsDecode : Obligations.SpecWordsDecode :=
  ⟨decode_encode (.dec36 0x123456789#36), decode_encode (.dec32 0x012345678#36),
    decode_encode (.xlate 0x000000123#36), decode_encode (.reservedOp3 0xFFFFFFFFF#36)⟩

/-- A number is a request exactly when the port can carry it, and then it is the request of its word. -/
theorem decodeNat_eq_ok_iff (w : Nat) (i : Instr) :
    decodeNat w = .ok i ↔ w < 2 ^ 38 ∧ decode (BitVec.ofNat 38 w) = i := by
  unfold decodeNat
  split
  next hw => simp only [Except.ok.injEq, hw, true_and]
  next hw => simp only [hw, false_and, reduceCtorEq]

theorem decodeNat_encode (i : Instr) : decodeNat (encode i).toNat = .ok i := by
  refine (decodeNat_eq_ok_iff _ i).mpr ⟨(encode i).isLt, ?_⟩
  rw [BitVec.ofNat_toNat, BitVec.setWidth_eq, decode_encode]

theorem decodeTableWord_eq_some_iff (nbits w : Nat) (i : Instr) :
    decodeTableWord nbits w = some i ↔ decodeNat (w % 2 ^ nbits) = .ok i := by
  unfold decodeTableWord
  split
  next h => simp [h]
  next h => simp [h]

/-- Settles O37: arranging the bytes twice is arranging them not at all, and five bytes hold the 38 bits of a word. -/
theorem byteChannelRoundTrip : Obligations.ByteChannelRoundTrip := by
  intro o i
  have hlen : (encodeBytes o i).length = 5 := (arrange_length o _).trans (natToBytes_length 5 _)
  have hfits : (encode i).toNat < 256 ^ 5 := (encode i).isLt.trans (by decide)
  refine ⟨hlen, ?_⟩
  rw [decodeBytes, if_pos hlen, encodeBytes, arrange_arrange, bytesToNat_natToBytes 5 _ hfits, decodeNat_encode]

namespace Machine

/-- Settles O20: the driven word is on the ports, and it is the word of the request the decoder reads from it. -/
theorem drivenTableWordRunsNext : Obligations.DrivenTableWordRunsNext := by
  intro s nbits w i htable
  obtain ⟨-, hi⟩ := (decodeNat_eq_ok_iff _ i).mp ((decodeTableWord_eq_some_iff nbits w i).mp htable)
  have hports : (s.withFetchWord nbits w).portWord = BitVec.ofNat 38 (w % 2 ^ nbits) :=
    portWord_drive s _ (requestWord_fields _)
  refine ⟨?_, ?_, rfl, rfl⟩
  · rw [step, hports, hi]
  · rw [← hi, encode_decode]
    exact hports

end Machine

end Sys2Proof
end

section
/-! What every step keeps and brings about (spec/70_reset_and_hazards.md R59 to R62). A step makes the outputs follow
the inputs, and a state in which they do is one that a further step does not change. -/

namespace Sys2Proof.Machine

/-- Settles O19: the word on the ports is the one the step decodes. -/
theorem stepRunsTheRequestOnThePorts : Obligations.StepRunsTheRequestOnThePorts := by
  rintro s i rfl
  rfl

/-- Settles O21: `step_eq` names the next state. -/
theorem everyRequestIsAnswered : Obligations.EveryRequestIsAnswered := fun s => ⟨_, step_eq s⟩

/-- Settles O22: the next state differs from the old one in its outputs only. -/
theorem stepChangesOnlyTheOutputs : Obligations.StepChangesOnlyTheOutputs := by
  intro s t hstep
  obtain rfl := (step_next_iff s t).mp hstep
  exact ⟨rfl, rfl, rfl⟩

/-- Outputs that follow the inputs show `pa` with status OK only (R11). -/
theorem paQualified_of_outputsFollowInputs {s : State} (h : OutputsFollowInputs s) : PaQualified s := by
  rw [OutputsFollowInputs] at h
  rw [PaQualified, h]
  exact fun hst => respond_pa_zero s.rom _ (.inr hst)

/-- A step establishes the invariant, from any state (R59). -/
theorem outputsFollowInputs_of_step {s t : State} (hstep : step s = .next t) : OutputsFollowInputs t := by
  obtain rfl := (step_next_iff s t).mp hstep
  rfl

/-- Settles O23: the step makes the outputs follow the inputs, and that qualifies `pa`. -/
theorem stepMakesOutputsFollowInputs : Obligations.StepMakesOutputsFollowInputs := fun _ _ hstep =>
  have h := outputsFollowInputs_of_step hstep
  ⟨h, paQualified_of_outputsFollowInputs h⟩

/-- The outputs at power-up are the response to DEC36 of operand 0, which stands on the ports. -/
theorem outputsFollowInputs_reset : OutputsFollowInputs State.reset := by
  have hreq : decode State.reset.portWord = .dec36 0 := decode_portWord_eq rfl rfl
  rw [OutputsFollowInputs, hreq]
  rfl

/-- Settles O24. -/
theorem resetOutputsFollowInputs : Obligations.ResetOutputsFollowInputs :=
  ⟨outputsFollowInputs_reset, paQualified_of_outputsFollowInputs outputsFollowInputs_reset⟩

/-- Where the outputs follow the inputs, a step changes nothing. -/
theorem step_of_outputsFollowInputs {s : State} (h : OutputsFollowInputs s) : step s = .next s := by
  rw [OutputsFollowInputs] at h
  rw [step_eq, ← h]

/-- A run that starts where the outputs follow the inputs stays there. -/
theorem core_run_of_outputsFollowInputs (k : Nat) {s : State} (h : OutputsFollowInputs s) :
    Host.Core.run core k s = .next s := by
  induction k with
  | zero => rfl
  | succ k ih =>
    rw [core_run_succ, ← (step_next_iff s s).mp (step_of_outputsFollowInputs h)]
    exact ih

/-- Settles O36: after the first step the outputs follow the inputs, so the other steps stay there. -/
theorem heldInputsKeepTheOutputs : Obligations.HeldInputsKeepTheOutputs := by
  intro k s
  rw [core_run_succ, step_eq]
  exact core_run_of_outputsFollowInputs k (outputsFollowInputs_of_step (step_eq s))

/-- Settles O39: a settled sample is the output of the step, which is the response to the request on the ports. -/
theorem samplingWaitsForSettle : Obligations.SamplingWaitsForSettle := by
  refine ⟨fun tSettle held s => ?_, fun _ _ => rfl⟩
  rw [sampleAfter, step_eq]
  rfl

/-- Settles O40: power-up keeps the ROM, and a session reads nothing else of the state it starts in. -/
theorem resetChangesNothingObservable : Obligations.ResetChangesNothingObservable := fun w ws _ =>
  serve_cons_congr_rom w ws rfl

end Sys2Proof.Machine
end

section
/-! The ROM (spec/10_state.md R12 to R16, spec/20_memory.md R19, R25): the codes of the statuses and the stored words of
entries, and what an entry means to XLATE. -/

namespace Sys2Proof.Machine

/-- The status a code names (R49). -/
def statusOfCode (c : StatusCode) : Status :=
  if c = 0 then .ok else if c = 1 then .outOfRange else if c = 2 then .pageNotResident else .illegalOp

theorem statusOfCode_code (st : Status) : statusOfCode st.code = st := by
  cases st <;> rfl

theorem code_statusOfCode : ∀ c : StatusCode, (statusOfCode c).code = c := by decide

/-- Settles O13: `statusOfCode` is the inverse of `Status.code`. -/
theorem statusCodesAreTheTable : Obligations.StatusCodesAreTheTable := by
  refine ⟨rfl, rfl, rfl, rfl, fun c => ⟨statusOfCode c, code_statusOfCode c, ?_⟩⟩
  rintro st rfl
  exact (statusOfCode_code st).symm

/-- Settles O25: `romRead` at each index of the ROM as built. -/
theorem resetRomIsAsBuilt : Obligations.ResetRomIsAsBuilt := by
  refine ⟨romRead_zero _, romRead_one _, fun i hi => ?_⟩
  match i, hi with
  | 2, _ => exact romRead_two _
  | 3, _ => exact romRead_three _
  | 4, _ => exact romRead_four _
  | 5, _ => exact romRead_five _
  | 6, _ => exact romRead_six _
  | 7, _ => exact romRead_seven _

section StoredWord

variable (e : PageTableEntry)

/-- Bit `i` of a stored word: P, then M, then the frame (R19). -/
theorem romWord_getLsbD (i : Nat) : (romWord e).getLsbD i =
    if i = 0 then e.P else if i = 1 then e.M else e.frame.getLsbD (i - 2) := by
  have happ : (romWord e).getLsbD i = (e.frame ++ BitVec.ofBool e.M ++ BitVec.ofBool e.P).getLsbD i := rfl
  rw [happ, BitVec.getLsbD_append, BitVec.getLsbD_append]
  match i with
  | 0 => simp
  | 1 => simp
  | i + 2 => simp

theorem romWord_getLsbD_zero : (romWord e).getLsbD 0 = e.P := romWord_getLsbD e 0

theorem romWord_getLsbD_one : (romWord e).getLsbD 1 = e.M := romWord_getLsbD e 1

theorem romWord_frame : (romWord e).extractLsb' 2 20 = e.frame := by
  apply BitVec.eq_of_getLsbD_eq
  intro i hi
  have hshift : (romWord e).getLsbD (2 + i) = e.frame.getLsbD i := by
    rw [Nat.add_comm]
    exact romWord_getLsbD e (i + 2)
  rw [BitVec.getLsbD_extractLsb', hshift, decide_eq_true hi, Bool.true_and]

/-- The record is read back from its stored word. -/
theorem romEntryOfWord_romWord : romEntryOfWord (romWord e) = e := by
  rw [romEntryOfWord, romWord_getLsbD_zero, romWord_getLsbD_one, field_eq_extract, romWord_frame]

/-- The stored word of a record that was read from a word is that word. -/
theorem romWord_romEntryOfWord (w : RomWord) : romWord (romEntryOfWord w) = w := by
  apply BitVec.eq_of_getLsbD_eq
  intro i hi
  rw [romWord_getLsbD]
  match i with
  | 0 => rfl
  | 1 => rfl
  | i + 2 =>
    have hi' : i < 20 := by omega
    simp [romEntryOfWord, field_eq_extract, hi', Nat.add_comm 2 i]

end StoredWord

/-- The words of entries 0 and 1: their P and frame are fixed (R13, R14), so only M is left to vary. -/
theorem romWord_fixed_entries (r : Rom) :
    (romWord (romRead r 0)).toNat = 0x000001 ||| (r.m0.toNat <<< 1) ∧
    (romWord (romRead r 1)).toNat = 0x000020 ||| (r.m1.toNat <<< 1) := by
  have hword0 : ∀ m : Bool, (romWord { P := true, M := m, frame := 0 }).toNat = 0x000001 ||| (m.toNat <<< 1) := by
    decide
  have hword1 : ∀ m : Bool, (romWord { P := false, M := m, frame := 8 }).toNat = 0x000020 ||| (m.toNat <<< 1) := by
    decide
  exact ⟨hword0 r.m0, hword1 r.m1⟩

/-- Settles O31, from the bits of a stored word. -/
theorem romWordLayout : Obligations.RomWordLayout :=
  ⟨fun e => ⟨romWord_getLsbD_zero e, romWord_getLsbD_one e, romWord_frame e, romEntryOfWord_romWord e⟩,
    romWord_romEntryOfWord, romWord_fixed_entries⟩

/-- Of the ROM, XLATE's response is a function of P and frame of the selected entry (R16, R47). -/
theorem xlateResponse_congr_entry {rom rom' : Rom} {va : VirtualAddress}
    (h : ∀ hin : InRange (pnOf va),
      (romRead rom ⟨(pnOf va).toNat, hin⟩).P = (romRead rom' ⟨(pnOf va).toNat, hin⟩).P ∧
      (romRead rom ⟨(pnOf va).toNat, hin⟩).frame = (romRead rom' ⟨(pnOf va).toNat, hin⟩).frame) :
    xlateResponse rom va = xlateResponse rom' va := by
  by_cases hin : InRange (pnOf va)
  · obtain ⟨hP, hframe⟩ := h hin
    cases hp : (romRead rom' ⟨(pnOf va).toNat, hin⟩).P
    case false => rw [xlateResponse_absent rom va hin (hP.trans hp), xlateResponse_absent rom' va hin hp]
    case true =>
      rw [xlateResponse_present rom va hin (hP.trans hp), xlateResponse_present rom' va hin hp, hframe]
  · rw [xlateResponse_outOfRange rom va hin, xlateResponse_outOfRange rom' va hin]

/-- Settles O30: both responses are `xlateResponse` of one ROM's entry. -/
theorem onlyTheSelectedEntryMatters : Obligations.OnlyTheSelectedEntryMatters := by
  intro va s s'
  rw [← pnOf_toNat_and va]
  intro hentry
  refine ⟨xlateResponse s.rom va, exec_eq (.xlate va) s, ?_⟩
  rw [xlateResponse_congr_entry hentry]
  exact exec_eq (.xlate va) s'

section PageNumbers

variable (rom : Rom) {va : VirtualAddress}

/-- Page 0 is present with frame 0 on every ROM (R13, R25). -/
theorem xlateResponse_page_zero (hpn : (pnOf va).toNat = 0) :
    (xlateResponse rom va).statusPort = 0 ∧ (xlateResponse rom va).pa.toNat = (offOf va).toNat := by
  have hin : InRange (pnOf va) := by rw [InRange, hpn]; decide
  have hread : romRead rom ⟨(pnOf va).toNat, hin⟩ = romRead rom 0 := congrArg (romRead rom) (Fin.ext hpn)
  rw [xlateResponse_present rom va hin (by rw [hread, romRead_zero]), hread, romRead_zero]
  exact ⟨rfl, (physicalAddress_toNat 0 (offOf va)).trans (by simp)⟩

/-- Page 1 is in swap on every ROM (R14, R25). -/
theorem xlateResponse_page_one (hpn : (pnOf va).toNat = 1) :
    (xlateResponse rom va).statusPort = 2 ∧ (xlateResponse rom va).pa = 0 := by
  have hin : InRange (pnOf va) := by rw [InRange, hpn]; decide
  have hread : romRead rom ⟨(pnOf va).toNat, hin⟩ = romRead rom 1 := congrArg (romRead rom) (Fin.ext hpn)
  rw [xlateResponse_absent rom va hin (by rw [hread, romRead_one])]
  exact ⟨rfl, rfl⟩

/-- The status of an in-range page is that of its entry's P bit (R45). -/
theorem xlateResponse_status_inRange (hin : InRange (pnOf va)) :
    (xlateResponse rom va).statusPort = if (romRead rom ⟨(pnOf va).toNat, hin⟩).P then 0 else 2 := by
  cases hp : (romRead rom ⟨(pnOf va).toNat, hin⟩).P
  case false => rw [xlateResponse_absent rom va hin hp]; rfl
  case true => rw [xlateResponse_present rom va hin hp]; rfl

end PageNumbers

/-- Settles O35: each clause is a page number of R25's map. -/
theorem pageNumberMap : Obligations.PageNumberMap := by
  intro va s
  rw [← pnOf_toNat_and va, ← offOf_toNat_and va]
  refine ⟨_, exec_eq (.xlate va) s, xlateResponse_page_zero s.rom, xlateResponse_page_one s.rom,
    fun hin _ => xlateResponse_status_inRange s.rom hin, fun h => ?_⟩
  rw [respond, xlateResponse_outOfRange s.rom va (Nat.not_lt.mpr h)]
  exact ⟨rfl, rfl⟩

end Sys2Proof.Machine
end

section
/-! Building a block (spec/00_scope.md R2, spec/10_state.md R12 to R15, spec/70_reset_and_hazards.md R60). A table of
eight records is written as a function of the index, so that one equation speaks of every entry. -/

namespace Sys2Proof.Machine

/-- A table of length 8 is a function of the index. -/
theorem exists_eq_ofFn_of_length {t : List RawEntry} (h : t.length = 8) :
    ∃ f : Fin 8 → RawEntry, t = List.ofFn f :=
  ⟨_, (List.ofFn_get t).symm.trans (List.ofFn_congr h t.get)⟩

theorem length_of_rawTableWf {t : List RawEntry} (h : rawTableWf t = true) : t.length = 8 := by
  simp only [rawTableWf, Bool.and_eq_true, decide_eq_true_eq] at h
  obtain ⟨⟨⟨hlen, -⟩, -⟩, -⟩ := h
  exact hlen

theorem length_of_buildRom {t : List RawEntry} {r : Rom} (h : buildRom t = .ok r) : t.length = 8 := by
  unfold buildRom at h
  split at h
  next => rfl
  next => cases h

/-- The ROM of eight raw records; of the first two only M is kept. -/
def romOfRaw (f : Fin 8 → RawEntry) : Rom where
  m0 := (f 0).modified
  m1 := (f 1).modified
  e2 := entryOfRaw (f 2)
  e3 := entryOfRaw (f 3)
  e4 := entryOfRaw (f 4)
  e5 := entryOfRaw (f 5)
  e6 := entryOfRaw (f 6)
  e7 := entryOfRaw (f 7)

section Table

variable (f : Fin 8 → RawEntry)

/-- The checks left for a table of eight records: every frame, and the two known entries. -/
theorem rawTableWf_ofFn : rawTableWf (List.ofFn f) =
    ((List.ofFn f).all RawEntry.frameOk && (f 0).isRom0 && (f 1).isRom1) := rfl

/-- Building makes the checks of `rawTableWf`, each with its refusal, and then the ROM of the table. -/
theorem buildRom_ofFn_eq_ok_iff (r : Rom) : buildRom (List.ofFn f) = .ok r ↔
    rawTableWf (List.ofFn f) = true ∧ romOfRaw f = r := by
  have hbuild : buildRom (List.ofFn f) =
      if !(List.ofFn f).all RawEntry.frameOk then .error .frameTooWide
      else if !(f 0).isRom0 then .error .entry0
      else if !(f 1).isRom1 then .error .entry1
      else .ok (romOfRaw f) := rfl
  rw [hbuild, rawTableWf_ofFn]
  cases (List.ofFn f).all RawEntry.frameOk
  case false => simp
  case true =>
    cases (f 0).isRom0
    case false => simp
    case true =>
      cases (f 1).isRom1
      case false => simp
      case true => simp

variable {f} (hwf : rawTableWf (List.ofFn f) = true)
include hwf

/-- Every frame of a legal table is in range, and its first two records are the known entries. -/
theorem checks_of_rawTableWf :
    (∀ i, (f i).frame < 2 ^ 20) ∧ ((f 0).presence = true ∧ (f 0).frame = 0) ∧
      ((f 1).presence = false ∧ (f 1).frame = 8) := by
  rw [rawTableWf_ofFn, Bool.and_eq_true, Bool.and_eq_true, List.all_eq_true, List.forall_mem_ofFn_iff] at hwf
  obtain ⟨⟨hframes, h0⟩, h1⟩ := hwf
  refine ⟨fun i => of_decide_eq_true (hframes i), ?_, ?_⟩
  · simpa [RawEntry.isRom0] using h0
  · simpa [RawEntry.isRom1] using h1

/-- An entry read from the ROM of a legal table is the table's: what the ROM has hard-wired, the table has too. -/
theorem romRead_romOfRaw (i : Fin 8) : romRead (romOfRaw f) i = entryOfRaw (f i) := by
  obtain ⟨-, ⟨hP0, hframe0⟩, ⟨hP1, hframe1⟩⟩ := checks_of_rawTableWf hwf
  match i with
  | 0 =>
    rw [romRead_zero, entryOfRaw, hP0, hframe0]
    rfl
  | 1 =>
    rw [romRead_one, entryOfRaw, hP1, hframe1]
    rfl
  | 2 | 3 | 4 | 5 | 6 | 7 => rfl

/-- No bit of a legal table's frame is lost. -/
theorem entryOfRaw_frame_toNat (i : Fin 8) : (entryOfRaw (f i)).frame.toNat = (f i).frame :=
  (BitVec.toNat_ofNat _ _).trans (Nat.mod_eq_of_lt ((checks_of_rawTableWf hwf).left i))

end Table

/-- Settles O32: both sides say that the table has length 8, and for such a table building makes the checks of
`rawTableWf`. -/
theorem buildAcceptsExactlyLegalTables : Obligations.BuildAcceptsExactlyLegalTables := by
  refine fun t => ⟨⟨?_, fun hwf => ?_⟩, fun r hr i => ?_⟩
  · rintro ⟨r, hr⟩
    obtain ⟨f, rfl⟩ := exists_eq_ofFn_of_length (length_of_buildRom hr)
    obtain ⟨hwf, -⟩ := (buildRom_ofFn_eq_ok_iff f r).mp hr
    exact hwf
  · obtain ⟨f, rfl⟩ := exists_eq_ofFn_of_length (length_of_rawTableWf hwf)
    exact ⟨romOfRaw f, (buildRom_ofFn_eq_ok_iff f _).mpr ⟨hwf, rfl⟩⟩
  · obtain ⟨f, rfl⟩ := exists_eq_ofFn_of_length (length_of_buildRom hr)
    have hentry : (List.ofFn f)[i.val]? = some (f i) := by rw [List.getElem?_ofFn, dif_pos i.isLt]
    obtain ⟨hwf, rfl⟩ := (buildRom_ofFn_eq_ok_iff f r).mp hr
    refine ⟨f i, hentry, ?_⟩
    rw [romRead_romOfRaw hwf]
    exact ⟨rfl, rfl, entryOfRaw_frame_toNat hwf i⟩

end Sys2Proof.Machine
end

section
/-! The assembler's text and words (spec/30_encoding.md R36): a comment is cut before anything is read, an operand in
range goes into the word's low bits, and `.word` spells the words of the reserved operation. -/

namespace Sys2Proof.Machine

/-- What follows the line's semicolon is cut off with it. -/
theorem stripComment_append_comment (line comment : List Char) :
    stripComment (line ++ ';' :: comment) = stripComment line := by
  induction line with
  | nil => simp [stripComment]
  | cons c line ih =>
    rw [stripComment] at ih
    simp only [stripComment, List.cons_append, List.takeWhile_cons, ih]

/-- Settles O38: the two lines are one without their comments. -/
theorem commentsMeanNothing : Obligations.CommentsMeanNothing := by
  intro line comment
  rw [parseLine, stripComment_append_comment]
  rfl

section Operand

variable {n : Nat}

theorem assembleOperand_refused (h : 2 ^ 36 ≤ n) : assembleOperand n = .error .operandTooWide :=
  if_neg (by simpa [operandOk] using h)

theorem map_assembleOperand_ok (mk : VirtualAddress → Instr) (h : n < 2 ^ 36) :
    (assembleOperand n).map mk = .ok (mk (BitVec.ofNat 36 n)) := by
  rw [assembleOperand_ok h]
  rfl

theorem map_assembleOperand_refused (mk : VirtualAddress → Instr) (h : 2 ^ 36 ≤ n) :
    (assembleOperand n).map mk = .error .operandTooWide := by
  rw [assembleOperand_refused h]
  rfl

/-- The word of a request whose operand was written as a number in range. -/
theorem encode_toNat_of_operand {i : Instr} (hva : i.va = BitVec.ofNat 36 n) (h : n < 2 ^ 36) :
    (encode i).toNat = i.opCode.toNat * 2 ^ 36 + n := by
  have hn : (BitVec.ofNat 36 n).toNat = n := (BitVec.toNat_ofNat n 36).trans (Nat.mod_eq_of_lt h)
  rw [encode, requestWord_toNat, hva, hn]

end Operand

section ReservedWord

variable {w : Nat}

theorem reservedWordOk_iff : reservedWordOk w = true ↔ 0x3000000000 ≤ w ∧ w ≤ 0x3FFFFFFFFF := by
  rw [reservedWordOk, decide_eq_true_iff]
  show 3 * 2 ^ 36 ≤ w ∧ w < 4 * 2 ^ 36 ↔ _
  omega

/-- A reserved word has the code 3. -/
theorem opField_ofNat_reserved (hlo : 0x3000000000 ≤ w) (hhi : w ≤ 0x3FFFFFFFFF) :
    opField (BitVec.ofNat 38 w) = 3 := by
  apply BitVec.eq_of_toNat_eq
  rw [opField, field_eq_extract, BitVec.extractLsb'_toNat, BitVec.toNat_ofNat, Nat.shiftRight_eq_div_pow]
  show w % 2 ^ 38 / 2 ^ 36 % 2 ^ 2 = 3
  omega

/-- `.word` gives the reserved request with exactly the word that was written. -/
theorem assemble_word (hlo : 0x3000000000 ≤ w) (hhi : w ≤ 0x3FFFFFFFFF) :
    ∃ va, assemble (.word w) = .ok (.reservedOp3 va) ∧ (encode (.reservedOp3 va)).toNat = w := by
  have hdec : decode (BitVec.ofNat 38 w) = .reservedOp3 (vaField (BitVec.ofNat 38 w)) :=
    decode_of_fields (opField_ofNat_reserved hlo hhi) rfl
  refine ⟨vaField (BitVec.ofNat 38 w), ?_, ?_⟩
  · rw [← hdec]
    exact if_pos (reservedWordOk_iff.mpr ⟨hlo, hhi⟩)
  · rw [← hdec, encode_decode, BitVec.toNat_ofNat]
    omega

theorem assemble_word_refused (h : w < 0x3000000000 ∨ 0x3FFFFFFFFF < w) :
    assemble (.word w) = .error .notReservedWord := by
  have hno : ¬ reservedWordOk w = true := by
    rw [reservedWordOk_iff]
    omega
  exact if_neg hno

end ReservedWord

/-- Settles O33: the three mnemonics share `assembleOperand`, and `.word` is decoded. -/
theorem assemblerWritesOpAndOperand : Obligations.AssemblerWritesOpAndOperand := by
  refine ⟨fun n h => ⟨?_, ?_, ?_⟩, fun n h => ⟨?_, ?_, ?_⟩, fun _ => assemble_word,
    fun _ => assemble_word_refused⟩
  · exact ⟨_, map_assembleOperand_ok .dec36 h, encode_toNat_of_operand rfl h⟩
  · exact ⟨_, map_assembleOperand_ok .dec32 h, encode_toNat_of_operand rfl h⟩
  · exact ⟨_, map_assembleOperand_ok .xlate h, encode_toNat_of_operand rfl h⟩
  · exact map_assembleOperand_refused .dec36 h
  · exact map_assembleOperand_refused .dec32 h
  · exact map_assembleOperand_refused .xlate h

end Sys2Proof.Machine
end
